-- ==== Sys2Proof/Word.lean ====
section
/-! DEFINITION. The word type of the block: 00_scope.md R6 and R8. Times are integers in nanoseconds: the spec computes on
mathematical integers and makes the signed 64-bit range a premise on the environment (40_time_model.md R80). -/

namespace Sys2Proof

/-- One bus transfer moves one unsigned byte (00_scope.md R6, 20_memory.md R42). -/
abbrev Byte := BitVec 8

end Sys2Proof
end

