-- ==== Sys2Proof/Config.lean ====
section
/-! DEFINITION. Constants and parameters of the block (00_scope.md R6) and the free values of modes 6 and 7
(40_time_model.md R99). -/

namespace Sys2Proof

/-- `PIT_FREQ`, the reference frequency in Hz (00_scope.md R6). -/
def Config.pitFreq : Nat := 1193182

/-- `TICKS_PER_SEC`, units of the virtual clock in a second (00_scope.md R6, decision D2: log entry 27). -/
def Config.ticksPerSec : Nat := 1000000000

/-- The parameter `MODE67` (40_time_model.md R99): what the time model and `GATE` do when `mode` is 6 or 7.
`refuse`, `sourceDefaultArms` and `aliased` (the spec writes alias) are the settings of 93_implementation_defined.md U1; `free` is the model's own
(log entry 5): the operation runs and each value the spec does not state is a free value. -/
inductive Mode67 where
  | refuse
  | sourceDefaultArms
  | aliased
  | free
deriving DecidableEq, Repr

/-- The parameter `UNPROG` (42_counter_port.md R116, R126): a counter-port access while the channel's sequencer is 0.
The two settings of 93_implementation_defined.md U2. -/
inductive Unprog where
  | refuse
  | asLsb
deriving DecidableEq, Repr

/-- The open parameters of 00_scope.md R6. They are carried beside the state so that every statement holds for every
setting; no operation changes them (log entry 3). -/
structure Params where
  /-- `IOBASE`, the base I/O port. -/
  ioBase : Nat
  /-- `IRQ_INDEX`, the line index on the connected controller. -/
  irqIndex : Nat
  /-- `MODE67`. -/
  mode67 : Mode67
  /-- `UNPROG`. -/
  unprog : Unprog
  /-- `NONE_ENCODING`, the 64-bit pattern of `NONE` in persisted state (10_state.md R31). -/
  noneEncoding : BitVec 64
  /-- `T_INIT`, the virtual-clock value at construction (10_state.md R30). -/
  tInit : Int
deriving DecidableEq, Repr

/-- Free value: the 16-bit counter snapshot of a channel in mode 6 or 7 under `Mode67.free`, a function of what
40_time_model.md R82 lets `get_count` read (mode, count, load time, current time). DESIGN CHOICE, log entry 5. -/
opaque Config.mode67Count (mode : BitVec 3) (count : Nat) (load t : Int) : BitVec 16

/-- Free value: the level of OUT in mode 6 or 7 under `Mode67.free`. DESIGN CHOICE, log entry 5. -/
opaque Config.mode67Out (mode : BitVec 3) (count : Nat) (load t : Int) : Bool

/-- Free value: the tick index of the next transition, or none, in mode 6 or 7 under `Mode67.free`; the conversion of
40_time_model.md R96 is applied to it. DESIGN CHOICE, log entry 5. -/
opaque Config.mode67NextTicks (mode : BitVec 3) (count : Nat) (load t : Int) : Option Nat

/-- Free value: whether `GATE` reloads in mode 6 or 7 under `Mode67.free`, given the old and the new level
(43_gate_and_api.md R130 corner case e). DESIGN CHOICE, log entry 5. -/
opaque Config.mode67GateReload (mode : BitVec 3) (old new : Bool) : Bool

end Sys2Proof
end

