-- ==== Sys2Proof/Syntax.lean ====
section
/-! DEFINITION. The operations of 00_scope.md R5 as one inductive, one constructor per mnemonic of the opcode table, and
the non-bus events (format EV of 30_encoding.md R60). -/

namespace Sys2Proof

/-- A channel index 0, 1, 2 (10_state.md R10). -/
inductive Chan where
  | ch0
  | ch1
  | ch2
deriving DecidableEq, Repr

/-- The non-zero values of the `RW` field of a control word (30_encoding.md R62): 1 LSB only, 2 MSB only, 3 LSB then MSB. -/
inductive Access where
  | lsb
  | msb
  | word
deriving DecidableEq, Repr

/-- The fields of a read-back word (30_encoding.md R64), each with positive polarity: latch the counters, latch the
statuses, and which channels are selected. -/
structure ReadBack where
  count : Bool
  status : Bool
  sel0 : Bool
  sel1 : Bool
  sel2 : Bool
deriving DecidableEq, Repr

/-- Whether the read-back word selects channel `c`. -/
def ReadBack.selects (r : ReadBack) : Chan → Bool
  | .ch0 => r.sel0
  | .ch1 => r.sel1
  | .ch2 => r.sel2

/-- One operation (00_scope.md R5). A channel and an access field are operands, so that rows of the opcode table which
differ only in them are one constructor. The virtual time of the event is `State.clock`. -/
inductive Instr where
  /-- `CW.MODE`, 41_control_word.md R101. -/
  | cwMode (c : Chan) (access : Access) (mode : BitVec 3) (bcd : Bool)
  /-- `CW.LATCH`, 41_control_word.md R102. -/
  | cwLatch (c : Chan)
  /-- `CW.READBACK`, 41_control_word.md R103. -/
  | cwReadback (r : ReadBack)
  /-- `WR.CNT.LSB`, 42_counter_port.md R112. -/
  | wrCntLsb (c : Chan) (val : Byte)
  /-- `WR.CNT.MSB`, 42_counter_port.md R113. -/
  | wrCntMsb (c : Chan) (val : Byte)
  /-- `WR.CNT.WORD0`, 42_counter_port.md R114. -/
  | wrCntWord0 (c : Chan) (val : Byte)
  /-- `WR.CNT.WORD1`, 42_counter_port.md R115. -/
  | wrCntWord1 (c : Chan) (val : Byte)
  /-- `WR.CNT`: what the decoder reads for any counter-port write, and the form of an unprogrammed channel,
  42_counter_port.md R111, R116. -/
  | wrCnt (c : Chan) (val : Byte)
  /-- `RD.STATUS`, 42_counter_port.md R118. -/
  | rdStatus (c : Chan)
  /-- `RD.LATCH.LSB`, 42_counter_port.md R119. -/
  | rdLatchLsb (c : Chan)
  /-- `RD.LATCH.MSB`, 42_counter_port.md R120. -/
  | rdLatchMsb (c : Chan)
  /-- `RD.LATCH.WORD0`, 42_counter_port.md R121. -/
  | rdLatchWord0 (c : Chan)
  /-- `RD.LIVE.LSB`, 42_counter_port.md R122. -/
  | rdLiveLsb (c : Chan)
  /-- `RD.LIVE.MSB`, 42_counter_port.md R123. -/
  | rdLiveMsb (c : Chan)
  /-- `RD.LIVE.WORD0`, 42_counter_port.md R124. -/
  | rdLiveWord0 (c : Chan)
  /-- `RD.LIVE.WORD1`, 42_counter_port.md R125. -/
  | rdLiveWord1 (c : Chan)
  /-- `RD.CNT`: what the decoder reads for any counter-port read, and the form of an unprogrammed channel,
  42_counter_port.md R117, R126. -/
  | rdCnt (c : Chan)
  /-- `RD.CTRL`, 42_counter_port.md R127. -/
  | rdCtrl
  /-- `GATE`, 43_gate_and_api.md R130. The level is a number, so that a level outside 0 and 1 can be refused. -/
  | gate (c : Chan) (level : Nat)
  /-- `GET.GATE`, 43_gate_and_api.md R132. -/
  | getGate (c : Chan)
  /-- `GET.COUNT`, 43_gate_and_api.md R133. -/
  | getCount (c : Chan)
  /-- `GET.MODE`, 43_gate_and_api.md R134. -/
  | getMode (c : Chan)
  /-- `GET.OUT`, 43_gate_and_api.md R135. -/
  | getOut (c : Chan)
  /-- `HPET.DISABLE`, 43_gate_and_api.md R136. -/
  | hpetDisable
  /-- `HPET.ENABLE`, 43_gate_and_api.md R137. -/
  | hpetEnable
  /-- `EXPIRE`, 44_irq_scheduler.md R142. -/
  | expire
  /-- `RESET`, 70_reset_and_hazards.md R171. -/
  | reset
deriving DecidableEq, Repr

/-- The events that reach the block by name and not through a port: format EV of 30_encoding.md R60. -/
inductive DeviceEvent where
  | gate (c : Chan) (level : Nat)
  | getGate (c : Chan)
  | getCount (c : Chan)
  | getMode (c : Chan)
  | getOut (c : Chan)
  | hpetDisable
  | hpetEnable
  | expire
  | reset
deriving DecidableEq, Repr

/-- The operation a named event is. -/
def DeviceEvent.toInstr : DeviceEvent → Instr
  | .gate c level => .gate c level
  | .getGate c => .getGate c
  | .getCount c => .getCount c
  | .getMode c => .getMode c
  | .getOut c => .getOut c
  | .hpetDisable => .hpetDisable
  | .hpetEnable => .hpetEnable
  | .expire => .expire
  | .reset => .reset

end Sys2Proof
end

