-- ==== Sys2Proof/WellFormed.lean ====
section
/-! DEFINITION. Which operations are well formed. Every operand but one has a type that holds exactly its legal values;
the level of `GATE` is the exception (43_gate_and_api.md R130: a level outside 0 and 1 is refused). -/

namespace Sys2Proof

/-- The operation is one the spec gives a meaning to, as far as its operands go. -/
def Instr.wellFormed : Instr → Bool
  | .gate _ level => decide (level ≤ 1)
  | .cwMode .. | .cwLatch _ | .cwReadback _ => true
  | .wrCntLsb .. | .wrCntMsb .. | .wrCntWord0 .. | .wrCntWord1 .. | .wrCnt .. => true
  | .rdStatus _ | .rdLatchLsb _ | .rdLatchMsb _ | .rdLatchWord0 _ => true
  | .rdLiveLsb _ | .rdLiveMsb _ | .rdLiveWord0 _ | .rdLiveWord1 _ | .rdCnt _ | .rdCtrl => true
  | .getGate _ | .getCount _ | .getMode _ | .getOut _ => true
  | .hpetDisable | .hpetEnable | .expire | .reset => true

/-- The operation is selected by a bus transaction (formats BW_CTRL, BW_CNT and BR of 30_encoding.md R60); the others
have format EV and no bits. -/
def Instr.onBus : Instr → Bool
  | .cwMode .. | .cwLatch _ | .cwReadback _ => true
  | .wrCntLsb .. | .wrCntMsb .. | .wrCntWord0 .. | .wrCntWord1 .. | .wrCnt .. => true
  | .rdStatus _ | .rdLatchLsb _ | .rdLatchMsb _ | .rdLatchWord0 _ => true
  | .rdLiveLsb _ | .rdLiveMsb _ | .rdLiveWord0 _ | .rdLiveWord1 _ | .rdCnt _ | .rdCtrl => true
  | .gate .. | .getGate _ | .getCount _ | .getMode _ | .getOut _ => false
  | .hpetDisable | .hpetEnable | .expire | .reset => false

end Sys2Proof
end

