-- ==== Sys2Proof/Decode.lean ====
section
/-! DEFINITION. Decoding a bus transaction (30_encoding.md R60 to R65), and the encoder. A transaction word
`T[10:0] = dir, off, v` is held as two bytes, the low byte first: `v`, then `dir` and `off` in bits 2 and 1..0
(log entry 8). -/

namespace Sys2Proof

/-- Why bytes are no transaction of this block. -/
inductive DecodeError where
  /-- The text of the transaction is not two bytes long. -/
  | length
  /-- A bit above `T[10]` is set. -/
  | aboveTransaction
deriving DecidableEq, Repr

/-- Channel of a two-bit port offset or `SC` field; 3 names no channel (20_memory.md R40, 30_encoding.md R62). -/
def Chan.ofBits (b : BitVec 2) : Option Chan :=
  if b = 0 then some .ch0 else if b = 1 then some .ch1 else if b = 2 then some .ch2 else none

/-- The two-bit offset or `SC` field of a channel. -/
def Chan.toBits : Chan → BitVec 2
  | .ch0 => 0
  | .ch1 => 1
  | .ch2 => 2

/-- Access of a two-bit `RW` field; 0 is the counter-latch command (30_encoding.md R62). -/
def Access.ofBits (b : BitVec 2) : Option Access :=
  if b = 1 then some .lsb else if b = 2 then some .msb else if b = 3 then some .word else none

/-- The `RW` field of an access. -/
def Access.toBits : Access → BitVec 2
  | .lsb => 1
  | .msb => 2
  | .word => 3

/-- The fields of a read-back word (30_encoding.md R64): bits 5 and 4 are active low, bit 0 is not examined (R68). -/
def ReadBack.ofByte (v : Byte) : ReadBack where
  count := !v.getLsbD 5
  status := !v.getLsbD 4
  sel0 := v.getLsbD 1
  sel1 := v.getLsbD 2
  sel2 := v.getLsbD 3

/-- Decode tree of a control-port write (30_encoding.md R63). -/
def decodeControl (v : Byte) : Instr :=
  match Chan.ofBits (v.extractLsb' 6 2) with
  | none => .cwReadback (ReadBack.ofByte v)
  | some c =>
    match Access.ofBits (v.extractLsb' 4 2) with
    | none => .cwLatch c
    | some a => .cwMode c a (v.extractLsb' 1 3) (v.getLsbD 0)

/-- Top-level decode of a transaction, total over direction, offset and data byte (30_encoding.md R61). A counter-port
access is read as `WR.CNT` or `RD.CNT` of its channel; the sub-form is selected by the channel's state (`Machine.select`). -/
def decodeTransaction (dir : Bool) (off : BitVec 2) (v : Byte) : Instr :=
  match Chan.ofBits off, dir with
  | none, true => decodeControl v
  | none, false => .rdCtrl
  | some c, true => .wrCnt c v
  | some c, false => .rdCnt c

/-- Decode the two bytes of a transaction word, total on any bytes (30_encoding.md R60, R61). -/
def decode : List Byte → Except DecodeError Instr
  | [lo, hi] =>
    if hi.toNat < 8 then .ok (decodeTransaction (hi.getLsbD 2) (hi.extractLsb' 0 2) lo)
    else .error .aboveTransaction
  | _ => .error .length

/-- The two bytes of the transaction `dir`, `off`, `v`. -/
def transactionBytes (dir : Bool) (off : BitVec 2) (v : Byte) : List Byte :=
  [v, (BitVec.ofBool dir ++ off).setWidth 8]

/-- The control word of `CW.MODE` (30_encoding.md R62). -/
def modeByte (c : Chan) (a : Access) (mode : BitVec 3) (bcd : Bool) : Byte :=
  (c.toBits ++ a.toBits ++ mode ++ BitVec.ofBool bcd : BitVec 8)

/-- The control word of `CW.LATCH`, don't-care bits zero (30_encoding.md R62). -/
def latchByte (c : Chan) : Byte := (c.toBits ++ (0 : BitVec 6) : BitVec 8)

/-- The read-back word (30_encoding.md R64), bit 0 as drawn. -/
def ReadBack.toByte (r : ReadBack) : Byte :=
  ((3 : BitVec 2) ++ BitVec.ofBool (!r.count) ++ BitVec.ofBool (!r.status) ++ BitVec.ofBool r.sel2 ++
    BitVec.ofBool r.sel1 ++ BitVec.ofBool r.sel0 ++ (0 : BitVec 1) : BitVec 8)

/-- The bytes of the transaction that selects an operation; a named event has none (30_encoding.md R60). The sub-forms of
a counter-port access share one transaction (30_encoding.md R67). -/
def encode : Instr → Option (List Byte)
  | .cwMode c a mode bcd => some (transactionBytes true 3 (modeByte c a mode bcd))
  | .cwLatch c => some (transactionBytes true 3 (latchByte c))
  | .cwReadback r => some (transactionBytes true 3 r.toByte)
  | .wrCntLsb c v | .wrCntMsb c v | .wrCntWord0 c v | .wrCntWord1 c v | .wrCnt c v =>
    some (transactionBytes true c.toBits v)
  | .rdStatus c | .rdLatchLsb c | .rdLatchMsb c | .rdLatchWord0 c | .rdLiveLsb c | .rdLiveMsb c | .rdLiveWord0 c
  | .rdLiveWord1 c | .rdCnt c => some (transactionBytes false c.toBits 0)
  | .rdCtrl => some (transactionBytes false 3 0)
  | .gate .. | .getGate _ | .getCount _ | .getMode _ | .getOut _ | .hpetDisable | .hpetEnable | .expire | .reset => none

/-- The operation the decoder reads for the transaction that selects `i`: the sub-forms of a counter-port access are read
as `WR.CNT` or `RD.CNT` (30_encoding.md R61). -/
def Instr.asDecoded : Instr → Instr
  | .wrCntLsb c v | .wrCntMsb c v | .wrCntWord0 c v | .wrCntWord1 c v | .wrCnt c v => .wrCnt c v
  | .rdStatus c | .rdLatchLsb c | .rdLatchMsb c | .rdLatchWord0 c | .rdLiveLsb c | .rdLiveMsb c | .rdLiveWord0 c
  | .rdLiveWord1 c | .rdCnt c => .rdCnt c
  | .cwMode c a mode bcd => .cwMode c a mode bcd
  | .cwLatch c => .cwLatch c
  | .cwReadback r => .cwReadback r
  | .rdCtrl => .rdCtrl
  | .gate c level => .gate c level
  | .getGate c => .getGate c
  | .getCount c => .getCount c
  | .getMode c => .getMode c
  | .getOut c => .getOut c
  | .hpetDisable => .hpetDisable
  | .hpetEnable => .hpetEnable
  | .expire => .expire
  | .reset => .reset

/-- The first `nbits` bits of `w`. -/
def tableWordBits (nbits w : Nat) : Nat := w % 2 ^ nbits

/-- The two bytes of a table word, low byte first; bits above the sixteenth stay in the second byte's excess and are
refused by `decodeTableWord`. -/
def tableWordBytes (x : Nat) : List Byte := [BitVec.ofNat 8 x, BitVec.ofNat 8 (x / 256)]

/-- What the decoder reads from an opcode-table word whose bit 0 is `T[0]`; a row of no bits (format EV) has no word. -/
def decodeTableWord (nbits w : Nat) : Option Instr :=
  if nbits = 0 ∨ 2 ^ 16 ≤ tableWordBits nbits w then none
  else
    match decode (tableWordBytes (tableWordBits nbits w)) with
    | .ok i => some i
    | .error _ => none

end Sys2Proof
end

