-- ==== Sys2Proof/Machine/Parameters.lean ====
section
/-! DEFINITION. The parameter values of `State.reset`. The spec leaves these parameters open (00_scope.md R6); every
statement is about every setting, this one only fixes the machine a run from reset is of. -/

namespace Sys2Proof.Machine

/-- The setting `State.reset` has (log entries 4, 5 and 6): UNPROG at the one setting with an effect (PRESUMED, 93 U2),
MODE67 free (DESIGN CHOICE), IOBASE at its typical value 0x40, IRQ_INDEX 0, NONE_ENCODING all ones, T_INIT 0. -/
def resetParams : Params where
  ioBase := 0x40
  irqIndex := 0
  mode67 := .free
  unprog := .asLsb
  noneEncoding := BitVec.allOnes 64
  tInit := 0

end Sys2Proof.Machine
end

