-- ==== Sys2Proof/Machine/State.lean ====
section
/-! DEFINITION. The state of the block (10_state.md R10 to R25), its outputs and inputs (00_scope.md R7), the reasons a
step can stop, and the state after construction (10_state.md R32). -/

namespace Sys2Proof.Machine

/-- The values of the two byte sequencers (10_state.md R17): 1 LSB, 2 MSB, 3 WORD0, 4 WORD1, and 0, the value between a
reset and the first `CW.MODE` (90_conflicts.md C3). -/
inductive Sequencer where
  | unprogrammed
  | lsb
  | msb
  | word0
  | word1
deriving DecidableEq, Repr

/-- The fourteen fields of one channel (10_state.md R10). -/
structure Channel where
  /-- R11: the programmed initial count, 1..65536. -/
  count : Nat
  /-- R12. -/
  countLoadTime : Int
  /-- R13: 0..7. -/
  mode : BitVec 3
  /-- R14. -/
  bcd : Bool
  /-- R15. -/
  gate : Bool
  /-- R16: 0 not programmed since reset, 1 LSB, 2 MSB, 3 LSB then MSB. -/
  rwMode : BitVec 2
  /-- R17. -/
  readState : Sequencer
  /-- R17. -/
  writeState : Sequencer
  /-- R19. -/
  writeLatch : Byte
  /-- R20. -/
  latchedCount : BitVec 16
  /-- R21: 0 nothing pending, else the access the latch is consumed with. -/
  countLatched : BitVec 2
  /-- R22. -/
  statusLatched : Bool
  /-- R23. -/
  status : Byte
  /-- R24: `none` is the sentinel `NONE`. -/
  nextTransitionTime : Option Int
deriving DecidableEq, Repr

/-- What an operation returns to its caller (00_scope.md R7 "read data"; 43_gate_and_api.md R132 to R135). -/
inductive Result where
  /-- The byte of a bus read. -/
  | byte (b : Byte)
  /-- `GET.GATE`. -/
  | gate (level : Bool)
  /-- `GET.COUNT`. -/
  | count (n : Nat)
  /-- `GET.MODE`. -/
  | mode (m : BitVec 3)
  /-- `GET.OUT`. -/
  | out (level : Bool)
deriving DecidableEq, Repr

/-- A port access as the fabric presents it: `MemRead(addr, n)` and `MemWrite(addr, n, v)` of 00_scope.md R8, with
`bytes = n`. -/
structure PortAccess where
  write : Bool
  addr : Nat
  bytes : Nat
  data : Nat
deriving DecidableEq, Repr

/-- What an event asks for: a port access, or one of the named events (00_scope.md R7). -/
inductive Request where
  | port (a : PortAccess)
  | named (e : DeviceEvent)
deriving DecidableEq, Repr

/-- One event that crosses the boundary of the block: the nanoseconds since the event before it, which makes the virtual
clock monotonic as 20_memory.md R50 premise 1 requires (log entry 2), and the request. -/
structure Event where
  wait : Nat
  request : Request
deriving DecidableEq, Repr

/-- The state of the block with its outputs, its parameters and its inputs. Only `ch0`, `ch1`, `ch2`, `irq` and `timer`
are state of the block (10_state.md R10, R25); the last four fields are the model's own (log entries 1, 2, 3, 24). -/
structure State where
  /-- Channel 0. -/
  ch0 : Channel
  /-- Channel 1. -/
  ch1 : Channel
  /-- Channel 2. -/
  ch2 : Channel
  /-- 10_state.md R25: the level last asserted on the interrupt line. -/
  irq : Bool
  /-- 10_state.md R25: `none` cancelled, else the deadline of the one-shot host timer. -/
  timer : Option Int
  /-- 00_scope.md R7: what the last operation returned to its caller. -/
  result : Option Result
  /-- 00_scope.md R6: the parameters. -/
  params : Params
  /-- 20_memory.md R50: the virtual clock at the current event, the event's `now`. -/
  clock : Int
  /-- The events still to come, in the total order of 20_memory.md R48. -/
  inbox : List Event
deriving DecidableEq, Repr

/-- Why the block faults: never. It raises no exception and reports no error (60_exceptions.md R150), so the type has no
constructor. -/
inductive Fault where
deriving DecidableEq, Repr

/-- Why the model gives a step no meaning. Every refusal is safe: the model stops where the block goes on, so that no
claim about what follows can be proved. -/
inductive Refusal where
  /-- Raised by an arm of `exec` whose instruction has no meaning yet (none). Safe. -/
  | notModelled (mnemonic : String)
  /-- Raised by a time-model query with `t < count_load_time` (40_time_model.md R81). Safe. -/
  | timeBeforeLoad
  /-- Raised by a time-model query or `GATE` in mode 6 or 7 under `MODE67 = refuse` (40_time_model.md R99). Safe. -/
  | mode67
  /-- Raised by a counter-port access while the sequencer is 0 under `UNPROG = refuse` (42_counter_port.md R116, R126).
  Safe. -/
  | unprogrammed
  /-- Raised by `RD.CTRL` (42_counter_port.md R127). Safe. -/
  | controlPortRead
  /-- Raised by a port access that is wider than a byte or outside the four ports (20_memory.md R42). Safe. -/
  | badPortAccess
  /-- Raised by `GATE` with a level outside 0 and 1 (43_gate_and_api.md R130). Safe. -/
  | gateLevel
  /-- Raised by `EXPIRE` while the timer is cancelled: the event cannot occur (44_irq_scheduler.md R143). Safe. -/
  | expireNotArmed
  /-- Raised by `EXPIRE` before its deadline: the event cannot occur (44_irq_scheduler.md R143). Safe. -/
  | expireNotDue
  /-- Raised by a sub-form of a counter-port access in a state that does not select it (42_counter_port.md R111, R117);
  `step` never presents one. Safe. -/
  | notSelected
  /-- Raised by `step` on bytes the decoder refuses; the bytes of a port access are never refused. Safe. -/
  | undecodable (e : DecodeError)
deriving DecidableEq, Repr

/-- Channel `c` of the state. -/
def State.ch (s : State) : Chan → Channel
  | .ch0 => s.ch0
  | .ch1 => s.ch1
  | .ch2 => s.ch2

/-- The state with channel `c` replaced. -/
def State.setCh (s : State) (c : Chan) (x : Channel) : State :=
  match c with
  | .ch0 => { s with ch0 := x }
  | .ch1 => { s with ch1 := x }
  | .ch2 => { s with ch2 := x }

/-- A channel after construction (10_state.md R32), with its gate level and next transition time. -/
def Channel.constructed (t : Int) (gate : Bool) (next : Int) : Channel where
  count := 65536
  countLoadTime := t
  mode := 3
  bcd := false
  gate := gate
  rwMode := 0
  readState := .unprogrammed
  writeState := .unprogrammed
  writeLatch := 0
  latchedCount := 0
  countLatched := 0
  statusLatched := false
  status := 0
  nextTransitionTime := some next

/-- The state after construction at `T_INIT` (10_state.md R32), for any setting of the parameters. Construction and the
reset inside it are one step (70_reset_and_hazards.md R170, log entry 23). -/
def State.constructed (p : Params) : State where
  ch0 := Channel.constructed p.tInit true (p.tInit + 27462700)
  ch1 := Channel.constructed p.tInit true 0
  ch2 := Channel.constructed p.tInit false 0
  irq := true
  timer := some (p.tInit + 27462700)
  result := none
  params := p
  clock := p.tInit
  inbox := []

/-- The machine right after construction, the reset included (10_state.md R30, R32). -/
def State.reset : State := State.constructed resetParams

end Sys2Proof.Machine
end

