-- ==== Sys2Proof/Machine/Flags.lean ====
section
/-! DEFINITION. The status byte and the levels of the block's flags (30_encoding.md R66, 43_gate_and_api.md R130). -/

namespace Sys2Proof.Machine

/-- `(OUT << 7) | (rw_mode << 4) | (mode << 1) | bcd`, bit 6 always 0 (30_encoding.md R66, 41_control_word.md R103). -/
def statusByte (out : Bool) (rwMode : BitVec 2) (mode : BitVec 3) (bcd : Bool) : Byte :=
  ((BitVec.ofBool out).setWidth 8 <<< 7) ||| (rwMode.setWidth 8 <<< 4) ||| (mode.setWidth 8 <<< 1) |||
    (BitVec.ofBool bcd).setWidth 8

/-- The level bit of a `GATE` event; a level outside 0 and 1 has none (43_gate_and_api.md R130, decision D24: log entry 12). -/
def levelBit (level : Nat) : Option Bool :=
  if level = 0 then some false else if level = 1 then some true else none

/-- A rising edge: old level 0, new level 1 (43_gate_and_api.md R130). -/
def risingEdge (old new : Bool) : Bool := !old && new

end Sys2Proof.Machine
end

