-- ==== Sys2Proof/Machine/Operands.lean ====
section
/-! DEFINITION. Operand forms: how the one or two bytes of a count are assembled and taken apart, and the values an
access field gives the sequencers (20_memory.md R43, 30_encoding.md R65, 10_state.md R17). -/

namespace Sys2Proof.Machine

/-- The sequencer value an access field starts a transfer at (41_control_word.md R101). -/
def Sequencer.ofAccess : Access → Sequencer
  | .lsb => .lsb
  | .msb => .msb
  | .word => .word0

/-- The count an `LSB` write loads (42_counter_port.md R112). -/
def lsbValue (val : Byte) : Nat := val.toNat

/-- The count an `MSB` write loads: `val << 8` (42_counter_port.md R113). -/
def msbValue (val : Byte) : Nat := val.toNat * 256

/-- The count a `WORD1` write loads: `write_latch | (val << 8)` (42_counter_port.md R115). -/
def wordValue (latch val : Byte) : Nat := latch.toNat ||| (val.toNat <<< 8)

/-- A loaded 0 stands for 65536 (42_counter_port.md R110). -/
def countOfValue (v : Nat) : Nat := if v = 0 then 65536 else v

/-- Bits 7..0 of a counter value (20_memory.md R43). -/
def lowByte (n : Nat) : Byte := BitVec.ofNat 8 n

/-- Bits 15..8 of a counter value (20_memory.md R43). -/
def highByte (n : Nat) : Byte := BitVec.ofNat 8 (n >>> 8)

/-- The 16-bit snapshot a latch stores: `get_count mod 2^16` (41_control_word.md R100, decision D16: log entry 19). -/
def snapshot (n : Nat) : BitVec 16 := BitVec.ofNat 16 n

end Sys2Proof.Machine
end

