-- ==== Sys2Proof/Machine/TimeModel.lean ====
section
/-! DEFINITION. The time model (40_time_model.md): elapsed ticks, counter value, OUT level, next transition. -/

namespace Sys2Proof.Machine

/-- `muldiv(a, b, c) = floor(a * b / c)`, the product formed exactly (40_time_model.md R80). -/
def muldiv (a b c : Nat) : Nat := a * b / c

/-- The time of tick `n` after the load, floored (40_time_model.md R96; rounding: log entry 15). -/
def ticksToTime (n : Nat) : Nat := muldiv n Config.ticksPerSec Config.pitFreq

/-- The ticks elapsed after `ns` nanoseconds (40_time_model.md R81). -/
def timeToTicks (ns : Nat) : Nat := muldiv ns Config.pitFreq Config.ticksPerSec

/-- `d(s, t)` (40_time_model.md R81); not defined before the load. -/
def elapsed (x : Channel) (t : Int) : Except Refusal Nat :=
  if t < x.countLoadTime then .error .timeBeforeLoad else .ok (timeToTicks (t - x.countLoadTime).toNat)

/-- The six operating modes, for which the tables of 40_time_model.md have rows. -/
inductive OpMode where
  | mode0
  | mode1
  | mode2
  | mode3
  | mode4
  | mode5
deriving DecidableEq, Repr

/-- The operating mode of a mode field; 6 and 7 are none (40_time_model.md R99). -/
def OpMode.ofField (m : BitVec 3) : Option OpMode :=
  if m = 0 then some .mode0 else if m = 1 then some .mode1 else if m = 2 then some .mode2
  else if m = 3 then some .mode3 else if m = 4 then some .mode4 else if m = 5 then some .mode5 else none

/-- What governs a query: a row of the tables, a free value, or a refusal. -/
inductive ModeLaw where
  | row (m : OpMode)
  | free
  | refuse
deriving DecidableEq, Repr

/-- The row a mode field selects (40_time_model.md R82, R99). For 6 and 7 the setting of MODE67 decides: the row
`arm` of the source's default arm, the row of the aliased mode (6 as 2, 7 as 3), a free value, or a refusal
(93_implementation_defined.md U1). -/
def modeLaw (setting : Mode67) (arm : OpMode) (m : BitVec 3) : ModeLaw :=
  match OpMode.ofField m with
  | some r => .row r
  | none =>
    match setting with
    | .refuse => .refuse
    | .free => .free
    | .sourceDefaultArms => .row arm
    | .aliased => .row (if m = 6 then .mode2 else .mode3)

/-- `get_count` in the tick domain (40_time_model.md R83, R84, R85). -/
def countAt (m : OpMode) (count d : Nat) : Nat :=
  match m with
  | .mode0 | .mode1 | .mode4 | .mode5 => (((count : Int) - (d : Int)) % 65536).toNat
  | .mode2 => count - d % count
  | .mode3 => count - 2 * d % count

/-- `get_out` in the tick domain (40_time_model.md R87 to R91). -/
def outAt (m : OpMode) (count d : Nat) : Bool :=
  match m with
  | .mode0 => decide (count ≤ d)
  | .mode1 => decide (d < count)
  | .mode2 => decide (d % count = 0 ∧ d ≠ 0)
  | .mode3 => decide (d % count < (count + 1) / 2)
  | .mode4 | .mode5 => decide (d = count)

/-- `next_ticks` in the tick domain (40_time_model.md R92 to R95). -/
def nextTicksAt (m : OpMode) (count d : Nat) : Option Nat :=
  match m with
  | .mode0 | .mode1 => if d < count then some count else none
  | .mode2 =>
    let base := d / count * count
    if d - base = 0 ∧ d ≠ 0 then some (base + count) else some (base + count + 1)
  | .mode3 =>
    let base := d / count * count
    let half := (count + 1) / 2
    if d - base < half then some (base + half) else some (base + count)
  | .mode4 | .mode5 => if d < count then some count else if d = count then some (count + 1) else none

/-- One query of the time model: the elapsed ticks first (R81), then the row, the free value or the refusal (R99). -/
def timeQuery {α : Type} (p : Params) (arm : OpMode) (row : OpMode → Nat → α) (free : α) (x : Channel) (t : Int) :
    Except Refusal α :=
  match elapsed x t with
  | .error r => .error r
  | .ok d =>
    match modeLaw p.mode67 arm x.mode with
    | .row m => .ok (row m d)
    | .free => .ok free
    | .refuse => .error .mode67

/-- `get_count(s, t)` (40_time_model.md R82 to R86, R99). -/
def getCount (p : Params) (x : Channel) (t : Int) : Except Refusal Nat :=
  timeQuery p .mode2 (fun m d => countAt m x.count d)
    (Config.mode67Count x.mode x.count x.countLoadTime t).toNat x t

/-- `get_out(s, t)` (40_time_model.md R82, R87 to R91, R99). -/
def getOut (p : Params) (x : Channel) (t : Int) : Except Refusal Bool :=
  timeQuery p .mode0 (fun m d => outAt m x.count d) (Config.mode67Out x.mode x.count x.countLoadTime t) x t

/-- `next_ticks(s, t)` (40_time_model.md R82, R92 to R95, R99). -/
def nextTicks (p : Params) (x : Channel) (t : Int) : Except Refusal (Option Nat) :=
  timeQuery p .mode0 (fun m d => nextTicksAt m x.count d)
    (Config.mode67NextTicks x.mode x.count x.countLoadTime t) x t

/-- Conversion of a tick index to host time with the strict-future fix-up (40_time_model.md R96). -/
def tickTime (x : Channel) (t : Int) (n : Nat) : Int :=
  let h := x.countLoadTime + ticksToTime n
  if h ≤ t then t + 1 else h

/-- `next_transition_time(s, t)` (40_time_model.md R96). -/
def nextTransition (p : Params) (x : Channel) (t : Int) : Except Refusal (Option Int) :=
  (nextTicks p x t).map fun n => n.map (tickTime x t)

end Sys2Proof.Machine
end

