-- ==== Sys2Proof/Machine/Ops.lean ====
section
/-! DEFINITION. The shared sub-operations: SchedulerPass, Load, Latch, the status latch, gate processing, returning a
value. The block takes no exception and returns from none (60_exceptions.md R150, R156); the scheduler pass is its one
operation towards a processor, and it is written once here. -/

namespace Sys2Proof.Machine

/-- A meaning's answer: the next state, or the refusal. -/
def answer : Except Refusal State → Host.Outcome State Fault Refusal
  | .ok s => .next s
  | .error r => .refused r

/-- A sub-form's answer: its effect in the states that select it (the opcode table's `when`), a refusal elsewhere. -/
def answerWhen (selected : Bool) (k : Except Refusal State) : Host.Outcome State Fault Refusal :=
  if selected then answer k else .refused .notSelected

/-- The state with a value returned to the caller (00_scope.md R7). -/
def State.returning (s : State) (r : Result) : State := { s with result := some r }

/-- `SchedulerPass(t)` (44_irq_scheduler.md R140): next transition and OUT of channel 0 at `t`, the line driven, the
deadline stored and the timer armed or cancelled. -/
def schedulerPass (s : State) (t : Int) : Except Refusal State :=
  match nextTransition s.params s.ch0 t, getOut s.params s.ch0 t with
  | .error r, _ => .error r
  | .ok _, .error r => .error r
  | .ok expire, .ok out =>
    .ok { s with irq := out, ch0 := { s.ch0 with nextTransitionTime := expire }, timer := expire }

/-- The scheduler pass a change of channel `c` runs: channels 1 and 2 have no scheduler (42_counter_port.md R110,
43_gate_and_api.md R138). -/
def reschedule (c : Chan) (s : State) (t : Int) : Except Refusal State :=
  match c with
  | .ch0 => schedulerPass s t
  | .ch1 => .ok s
  | .ch2 => .ok s

/-- `Load(c, v, now)` (42_counter_port.md R110), `now` being the clock sample of the event. -/
def load (c : Chan) (v : Nat) (s : State) : Except Refusal State :=
  reschedule c (s.setCh c { s.ch c with count := countOfValue v, countLoadTime := s.clock }) s.clock

/-- `Latch(c, now)` on one channel (41_control_word.md R100). -/
def latchCount (p : Params) (x : Channel) (now : Int) : Except Refusal Channel :=
  if x.countLatched = 0 then
    (getCount p x now).map fun n => { x with latchedCount := snapshot n, countLatched := x.rwMode }
  else .ok x

/-- The status part of a read-back on one selected channel (41_control_word.md R103). -/
def latchStatus (p : Params) (x : Channel) (now : Int) : Except Refusal Channel :=
  if x.statusLatched then .ok x
  else
    (getOut p x now).map fun out =>
      { x with status := statusByte out x.rwMode x.mode x.bcd, statusLatched := true }

/-- What a read-back does to one channel: the count part, then the status part (41_control_word.md R103). -/
def readBackChannel (p : Params) (r : ReadBack) (selected : Bool) (x : Channel) (now : Int) : Except Refusal Channel :=
  if selected then
    (if r.count then latchCount p x now else .ok x).bind fun y => if r.status then latchStatus p y now else .ok y
  else .ok x

/-- A channel changed by a function that may refuse. -/
def updateChannel (c : Chan) (f : Channel → Except Refusal Channel) (s : State) : Except Refusal State :=
  (f (s.ch c)).map fun x => s.setCh c x

/-- Whether a gate edge reloads: a rising edge in modes 1, 2, 3 and 5, none in modes 0 and 4 (43_gate_and_api.md R130,
R131); in modes 6 and 7 as MODE67 says, the source's default arm being that of modes 0 and 4 (93 U1). -/
def gateReloads (p : Params) (x : Channel) (new : Bool) : Except Refusal Bool :=
  match modeLaw p.mode67 .mode0 x.mode with
  | .row .mode0 | .row .mode4 => .ok false
  | .row .mode1 | .row .mode2 | .row .mode3 | .row .mode5 => .ok (risingEdge x.gate new)
  | .free => .ok (Config.mode67GateReload x.mode x.gate new)
  | .refuse => .error .mode67

/-- A reload by the gate: the load time is stamped and channel 0 is rescheduled; the count stays (43_gate_and_api.md R130). -/
def gateReload (c : Chan) (s : State) : Except Refusal State :=
  reschedule c (s.setCh c { s.ch c with countLoadTime := s.clock }) s.clock

/-- The level is stored last, whatever happened before (43_gate_and_api.md R130). -/
def storeGate (c : Chan) (level : Bool) (s : State) : State := s.setCh c { s.ch c with gate := level }

/-- The gate level a reset gives channel `i`: 1 but for channel 2 (70_reset_and_hazards.md R171). -/
def resetGate : Chan → Bool
  | .ch0 => true
  | .ch1 => true
  | .ch2 => false

/-- What a reset assigns to channel `c` before its Load (70_reset_and_hazards.md R171; the five cleared fields are
decision D8: log entry 16). -/
def resetChannel (c : Chan) (x : Channel) : Channel :=
  { x with
    mode := 3
    gate := resetGate c
    rwMode := 0
    readState := .unprogrammed
    writeState := .unprogrammed
    statusLatched := false
    countLatched := 0 }

/-- One turn of the loop of a reset: the assignments, then `Load(i, 0, now)` (70_reset_and_hazards.md R171). -/
def resetOne (c : Chan) (s : State) : Except Refusal State := load c 0 (s.setCh c (resetChannel c (s.ch c)))

/-- A byte of the live count of channel `c` (42_counter_port.md R122 to R125). -/
def liveByte (half : Nat → Byte) (c : Chan) (s : State) : Except Refusal Byte :=
  (getCount s.params (s.ch c) s.clock).map half

/-- Nothing is latched for the channel, so that a read takes the live view (42_counter_port.md R117). -/
def liveView (x : Channel) : Bool := !x.statusLatched && decide (x.countLatched = 0)

/-- A pending count latch is served, no status being pending (42_counter_port.md R117). -/
def latchView (x : Channel) (access : BitVec 2) : Bool := !x.statusLatched && decide (x.countLatched = access)

end Sys2Proof.Machine
end

