-- ==== Sys2Proof/Machine/Control.lean ====
section
/-! DEFINITION. The control-port operations (41_control_word.md). None runs a scheduler pass (R105). -/

namespace Sys2Proof.Machine

/-- `CW.MODE` (41_control_word.md R101). -/
def execCwMode (c : Chan) (a : Access) (mode : BitVec 3) (bcd : Bool) (s : State) :
    Host.Outcome State Fault Refusal :=
  .next (s.setCh c
    { s.ch c with
      rwMode := a.toBits
      readState := Sequencer.ofAccess a
      writeState := Sequencer.ofAccess a
      mode := mode
      bcd := bcd })

/-- `CW.LATCH` (41_control_word.md R102). -/
def execCwLatch (c : Chan) (s : State) : Host.Outcome State Fault Refusal :=
  answer (updateChannel c (fun x => latchCount s.params x s.clock) s)

/-- One turn of the loop of a read-back, on channel `c` (41_control_word.md R103). -/
def readBackOne (r : ReadBack) (c : Chan) (s : State) : Except Refusal State :=
  updateChannel c (fun x => readBackChannel s.params r (r.selects c) x s.clock) s

/-- `CW.READBACK` (41_control_word.md R103). -/
def execCwReadback (r : ReadBack) (s : State) : Host.Outcome State Fault Refusal :=
  answer (((readBackOne r .ch0 s).bind (readBackOne r .ch1)).bind (readBackOne r .ch2))

end Sys2Proof.Machine
end

