-- ==== Sys2Proof/Machine/CounterRead.lean ====
section
/-! DEFINITION. Reads of a counter port: the serializer (42_counter_port.md R117 to R127). -/

namespace Sys2Proof.Machine

/-- `RD.STATUS` (42_counter_port.md R118), selected by `status_latched = 1`. -/
def execRdStatus (c : Chan) (s : State) : Host.Outcome State Fault Refusal :=
  answerWhen (s.ch c).statusLatched
    (.ok ((s.setCh c { s.ch c with statusLatched := false }).returning (.byte (s.ch c).status)))

/-- A read served from the count latch: a byte of the snapshot, and what is pending afterwards. -/
def readLatched (half : Nat → Byte) (pending : BitVec 2) (c : Chan) (s : State) : State :=
  (s.setCh c { s.ch c with countLatched := pending }).returning (.byte (half (s.ch c).latchedCount.toNat))

/-- `RD.LATCH.LSB` (42_counter_port.md R119), selected by `count_latched = 1`. -/
def execRdLatchLsb (c : Chan) (s : State) : Host.Outcome State Fault Refusal :=
  answerWhen (latchView (s.ch c) 1) (.ok (readLatched lowByte 0 c s))

/-- `RD.LATCH.MSB` (42_counter_port.md R120), selected by `count_latched = 2`. -/
def execRdLatchMsb (c : Chan) (s : State) : Host.Outcome State Fault Refusal :=
  answerWhen (latchView (s.ch c) 2) (.ok (readLatched highByte 0 c s))

/-- `RD.LATCH.WORD0` (42_counter_port.md R121), selected by `count_latched = 3`. -/
def execRdLatchWord0 (c : Chan) (s : State) : Host.Outcome State Fault Refusal :=
  answerWhen (latchView (s.ch c) 3) (.ok (readLatched lowByte 2 c s))

/-- The live view is taken and `read_state` is `q`: the opcode table's `when` of the live forms. -/
def liveAt (x : Channel) (q : Sequencer) : Bool := liveView x && decide (x.readState = q)

/-- A live read: a byte of the count at `now`, and where the read sequencer goes (42_counter_port.md R122 to R125). -/
def readLive (half : Nat → Byte) (next : Sequencer) (c : Chan) (s : State) : Except Refusal State :=
  (liveByte half c s).map fun b => (s.setCh c { s.ch c with readState := next }).returning (.byte b)

/-- `RD.LIVE.LSB` (42_counter_port.md R122), selected by `read_state = 1`. -/
def execRdLiveLsb (c : Chan) (s : State) : Host.Outcome State Fault Refusal :=
  answerWhen (liveAt (s.ch c) .lsb) (readLive lowByte .lsb c s)

/-- `RD.LIVE.MSB` (42_counter_port.md R123), selected by `read_state = 2`. -/
def execRdLiveMsb (c : Chan) (s : State) : Host.Outcome State Fault Refusal :=
  answerWhen (liveAt (s.ch c) .msb) (readLive highByte .msb c s)

/-- `RD.LIVE.WORD0` (42_counter_port.md R124), selected by `read_state = 3`. -/
def execRdLiveWord0 (c : Chan) (s : State) : Host.Outcome State Fault Refusal :=
  answerWhen (liveAt (s.ch c) .word0) (readLive lowByte .word1 c s)

/-- `RD.LIVE.WORD1` (42_counter_port.md R125), selected by `read_state = 4`. -/
def execRdLiveWord1 (c : Chan) (s : State) : Host.Outcome State Fault Refusal :=
  answerWhen (liveAt (s.ch c) .word1) (readLive highByte .word0 c s)

/-- `RD.CNT` of a channel not programmed since reset (42_counter_port.md R126), selected by `read_state = 0` with nothing
latched: the parameter UNPROG, whose setting as_LSB returns the low byte of the live count and leaves the state at 0
(93_implementation_defined.md U2). -/
def execRdCnt (c : Chan) (s : State) : Host.Outcome State Fault Refusal :=
  answerWhen (liveAt (s.ch c) .unprogrammed)
    (match s.params.unprog with
     | .refuse => .error .unprogrammed
     | .asLsb => readLive lowByte .unprogrammed c s)

/-- `RD.CTRL` (42_counter_port.md R127): the byte is unspecified and so is whether any state changes; refused
(decision D6: log entry 9). -/
def execRdCtrl (_s : State) : Host.Outcome State Fault Refusal := .refused .controlPortRead

end Sys2Proof.Machine
end

