-- ==== Sys2Proof/Machine/CounterWrite.lean ====
section
/-! DEFINITION. Writes to a counter port: the deserializer (42_counter_port.md R111 to R116). -/

namespace Sys2Proof.Machine

/-- `WR.CNT.LSB` (42_counter_port.md R112), selected by `write_state = 1`. -/
def execWrCntLsb (c : Chan) (val : Byte) (s : State) : Host.Outcome State Fault Refusal :=
  answerWhen (decide ((s.ch c).writeState = .lsb)) (load c (lsbValue val) s)

/-- `WR.CNT.MSB` (42_counter_port.md R113), selected by `write_state = 2`. -/
def execWrCntMsb (c : Chan) (val : Byte) (s : State) : Host.Outcome State Fault Refusal :=
  answerWhen (decide ((s.ch c).writeState = .msb)) (load c (msbValue val) s)

/-- `WR.CNT.WORD0` (42_counter_port.md R114), selected by `write_state = 3`. No Load. -/
def execWrCntWord0 (c : Chan) (val : Byte) (s : State) : Host.Outcome State Fault Refusal :=
  answerWhen (decide ((s.ch c).writeState = .word0))
    (.ok (s.setCh c { s.ch c with writeLatch := val, writeState := .word1 }))

/-- `WR.CNT.WORD1` (42_counter_port.md R115), selected by `write_state = 4`: the Load, then the state advance. -/
def execWrCntWord1 (c : Chan) (val : Byte) (s : State) : Host.Outcome State Fault Refusal :=
  answerWhen (decide ((s.ch c).writeState = .word1))
    ((load c (wordValue (s.ch c).writeLatch val) s).map fun t =>
      t.setCh c { t.ch c with writeState := .word0 })

/-- `WR.CNT` of a channel not programmed since reset (42_counter_port.md R116), selected by `write_state = 0`: the
parameter UNPROG, whose setting as_LSB loads `val` and leaves the state at 0 (93_implementation_defined.md U2). -/
def execWrCnt (c : Chan) (val : Byte) (s : State) : Host.Outcome State Fault Refusal :=
  answerWhen (decide ((s.ch c).writeState = .unprogrammed))
    (match s.params.unprog with
     | .refuse => .error .unprogrammed
     | .asLsb => load c (lsbValue val) s)

end Sys2Proof.Machine
end

