-- ==== Sys2Proof/Machine/Device.lean ====
section
/-! DEFINITION. Gate input, getters and HPET hooks (43_gate_and_api.md). -/

namespace Sys2Proof.Machine

/-- `GATE` (43_gate_and_api.md R130, R131). -/
def execGate (c : Chan) (level : Nat) (s : State) : Host.Outcome State Fault Refusal :=
  match levelBit level with
  | none => .refused .gateLevel
  | some new =>
    answer
      (((gateReloads s.params (s.ch c) new).bind fun reload => if reload then gateReload c s else .ok s).map
        (storeGate c new))

/-- `GET.GATE` (43_gate_and_api.md R132). -/
def execGetGate (c : Chan) (s : State) : Host.Outcome State Fault Refusal := .next (s.returning (.gate (s.ch c).gate))

/-- `GET.COUNT` (43_gate_and_api.md R133): the programmed initial count. -/
def execGetCount (c : Chan) (s : State) : Host.Outcome State Fault Refusal := .next (s.returning (.count (s.ch c).count))

/-- `GET.MODE` (43_gate_and_api.md R134). -/
def execGetMode (c : Chan) (s : State) : Host.Outcome State Fault Refusal := .next (s.returning (.mode (s.ch c).mode))

/-- `GET.OUT` (43_gate_and_api.md R135): `get_out` at the caller's time, not the stored `irq`. -/
def execGetOut (c : Chan) (s : State) : Host.Outcome State Fault Refusal :=
  answer ((getOut s.params (s.ch c) s.clock).map fun out => s.returning (.out out))

/-- `HPET.DISABLE` (43_gate_and_api.md R136): the timer is cancelled and nothing else changes. -/
def execHpetDisable (s : State) : Host.Outcome State Fault Refusal := .next { s with timer := none }

/-- `HPET.ENABLE` (43_gate_and_api.md R137). -/
def execHpetEnable (s : State) : Host.Outcome State Fault Refusal :=
  answer (load .ch0 0 { s with ch0 := { s.ch0 with mode := 3, gate := true } })

end Sys2Proof.Machine
end

