-- ==== Sys2Proof/Machine/Scheduler.lean ====
section
/-! DEFINITION. Host-timer expiry and reset (44_irq_scheduler.md R142, R143; 70_reset_and_hazards.md R170, R171). -/

namespace Sys2Proof.Machine

/-- `EXPIRE` (44_irq_scheduler.md R142): a pass at the stored next transition time, not at the present time. It can occur
only while the timer is armed and the clock has reached the deadline (R143). -/
def execExpire (s : State) : Host.Outcome State Fault Refusal :=
  match s.timer, s.ch0.nextTransitionTime with
  | some deadline, some t =>
    if deadline ≤ s.clock then answer (schedulerPass s t) else .refused .expireNotDue
  | _, _ => .refused .expireNotArmed

/-- `RESET` (70_reset_and_hazards.md R171): the timer is cancelled, then the three channels are reset in order. -/
def execReset (s : State) : Host.Outcome State Fault Refusal :=
  answer (((resetOne .ch0 { s with timer := none }).bind (resetOne .ch1)).bind (resetOne .ch2))

/-- A channel with every field zero (70_reset_and_hazards.md R170). -/
def Channel.zero : Channel where
  count := 0
  countLoadTime := 0
  mode := 0
  bcd := false
  gate := false
  rwMode := 0
  readState := .unprogrammed
  writeState := .unprogrammed
  writeLatch := 0
  latchedCount := 0
  countLatched := 0
  statusLatched := false
  status := 0
  nextTransitionTime := some 0

/-- The state a construction starts its reset from: every channel field zero, the timer cancelled, the line at the given
level, for it has no value yet (70_reset_and_hazards.md R170, 10_state.md R30). -/
def State.beforeReset (p : Params) (line : Bool) : State where
  ch0 := Channel.zero
  ch1 := Channel.zero
  ch2 := Channel.zero
  irq := line
  timer := none
  result := none
  params := p
  clock := p.tInit
  inbox := []

end Sys2Proof.Machine
end

