-- ==== Sys2Proof/Machine/Dispatch.lean ====
section
/-! DEFINITION. One arm per operation, each one call of its meaning. -/

namespace Sys2Proof.Machine

def exec (i : Instr) (s : State) : Host.Outcome State Fault Refusal :=
  match i with
  | .cwMode c a mode bcd => Sys2Proof.Machine.execCwMode c a mode bcd s
  | .cwLatch c => Sys2Proof.Machine.execCwLatch c s
  | .cwReadback r => Sys2Proof.Machine.execCwReadback r s
  | .wrCntLsb c val => Sys2Proof.Machine.execWrCntLsb c val s
  | .wrCntMsb c val => Sys2Proof.Machine.execWrCntMsb c val s
  | .wrCntWord0 c val => Sys2Proof.Machine.execWrCntWord0 c val s
  | .wrCntWord1 c val => Sys2Proof.Machine.execWrCntWord1 c val s
  | .wrCnt c val => Sys2Proof.Machine.execWrCnt c val s
  | .rdStatus c => Sys2Proof.Machine.execRdStatus c s
  | .rdLatchLsb c => Sys2Proof.Machine.execRdLatchLsb c s
  | .rdLatchMsb c => Sys2Proof.Machine.execRdLatchMsb c s
  | .rdLatchWord0 c => Sys2Proof.Machine.execRdLatchWord0 c s
  | .rdLiveLsb c => Sys2Proof.Machine.execRdLiveLsb c s
  | .rdLiveMsb c => Sys2Proof.Machine.execRdLiveMsb c s
  | .rdLiveWord0 c => Sys2Proof.Machine.execRdLiveWord0 c s
  | .rdLiveWord1 c => Sys2Proof.Machine.execRdLiveWord1 c s
  | .rdCnt c => Sys2Proof.Machine.execRdCnt c s
  | .rdCtrl => Sys2Proof.Machine.execRdCtrl s
  | .gate c level => Sys2Proof.Machine.execGate c level s
  | .getGate c => Sys2Proof.Machine.execGetGate c s
  | .getCount c => Sys2Proof.Machine.execGetCount c s
  | .getMode c => Sys2Proof.Machine.execGetMode c s
  | .getOut c => Sys2Proof.Machine.execGetOut c s
  | .hpetDisable => Sys2Proof.Machine.execHpetDisable s
  | .hpetEnable => Sys2Proof.Machine.execHpetEnable s
  | .expire => Sys2Proof.Machine.execExpire s
  | .reset => Sys2Proof.Machine.execReset s

end Sys2Proof.Machine
end

