-- ==== Sys2Proof/Machine/Bus.lean ====
section
/-! DEFINITION. How an event becomes an operation: the port access is checked and packed into the bytes of a transaction
(20_memory.md R40, R42; 30_encoding.md R60), decoded, and the sub-form of a counter-port access is selected by the state
of its channel (42_counter_port.md R111, R117). -/

namespace Sys2Proof.Machine

/-- The bytes of a port access: one byte to one of the four ports at `IOBASE` (20_memory.md R40, R42). -/
def fetch (p : Params) (a : PortAccess) : Except Refusal (List Byte) :=
  if a.bytes = 1 ∧ p.ioBase ≤ a.addr ∧ a.addr - p.ioBase < 4 then
    .ok (transactionBytes a.write (BitVec.ofNat 2 (a.addr - p.ioBase)) (BitVec.ofNat 8 a.data))
  else .error .badPortAccess

/-- The sub-form a counter-port write takes (42_counter_port.md R111). -/
def selectWrite (x : Channel) (c : Chan) (val : Byte) : Instr :=
  match x.writeState with
  | .unprogrammed => .wrCnt c val
  | .lsb => .wrCntLsb c val
  | .msb => .wrCntMsb c val
  | .word0 => .wrCntWord0 c val
  | .word1 => .wrCntWord1 c val

/-- The sub-form a live read takes (42_counter_port.md R117 case 3). -/
def selectLive (x : Channel) (c : Chan) : Instr :=
  match x.readState with
  | .unprogrammed => .rdCnt c
  | .lsb => .rdLiveLsb c
  | .msb => .rdLiveMsb c
  | .word0 => .rdLiveWord0 c
  | .word1 => .rdLiveWord1 c

/-- The sub-form a counter-port read takes, in the strict priority of 42_counter_port.md R117: status latch, count latch,
live view. -/
def selectRead (x : Channel) (c : Chan) : Instr :=
  if x.statusLatched then .rdStatus c
  else if x.countLatched = 1 then .rdLatchLsb c
  else if x.countLatched = 2 then .rdLatchMsb c
  else if x.countLatched = 3 then .rdLatchWord0 c
  else selectLive x c

/-- The operation a decoded transaction is in state `s` (30_encoding.md R61). -/
def select (s : State) (i : Instr) : Instr :=
  match i with
  | .wrCnt c val => selectWrite (s.ch c) c val
  | .rdCnt c => selectRead (s.ch c) c
  | other => other

/-- The operation a port access is in state `s`. -/
def portInstr (s : State) (a : PortAccess) : Except Refusal Instr :=
  match fetch s.params a with
  | .error r => .error r
  | .ok bytes =>
    match decode bytes with
    | .ok i => .ok (select s i)
    | .error e => .error (.undecodable e)

/-- The operation a request is in state `s`. -/
def requestInstr (s : State) : Request → Except Refusal Instr
  | .port a => portInstr s a
  | .named e => .ok e.toInstr

/-- The state at an event: it is taken from the list, the clock has moved on, nothing has been returned yet. -/
def arrive (s : State) (e : Event) (rest : List Event) : State :=
  { s with inbox := rest, clock := s.clock + e.wait, result := none }

/-- One event processed (20_memory.md R48: atomically, one after another). -/
def process (s : State) (e : Event) (rest : List Event) : Host.Outcome State Fault Refusal :=
  match requestInstr (arrive s e rest) e.request with
  | .error r => .refused r
  | .ok i => exec i (arrive s e rest)

/-- The port access whose transaction word is `x`; a word above `T[10]` gives an address outside the four ports. -/
def accessOfWord (p : Params) (x : Nat) : PortAccess where
  write := x.testBit 10
  addr := p.ioBase + x / 256 % 4 + 4 * (x / 2048)
  bytes := 1
  data := x % 256

end Sys2Proof.Machine
end

