-- ==== Sys2Proof/Machine/Step.lean ====
section
/-! DEFINITION. One step: the next event is processed; with no event the block is passive (60_exceptions.md R163). -/

namespace Sys2Proof.Machine

/-- One step of the block. -/
def step (s : State) : Host.Outcome State Fault Refusal :=
  match s.inbox with
  | [] => .next s
  | e :: rest => process s e rest

/-- The state whose very next event, at the present time, is the bus transaction with word `w` (log entry 1). -/
def State.withFetchWord (s : State) (nbits w : Nat) : State :=
  { s with inbox := ⟨0, .port (accessOfWord s.params (tableWordBits nbits w))⟩ :: s.inbox }

end Sys2Proof.Machine
end

