-- ==== Sys2Proof/Machine/Persist.lean ====
section
/-! DEFINITION. The persisted field set (10_state.md R31). Saving and restoring are no events of the block; the framework
is out of scope (00_scope.md R4) and the byte order is not given, so that a record of bit vectors stands for the image
(log entry 25). -/

namespace Sys2Proof.Machine

/-- The persisted fields of one channel but the next transition time, in the order and widths of 10_state.md R31. -/
structure PersistedFields where
  count : BitVec 32
  latchedCount : BitVec 16
  countLatched : BitVec 8
  statusLatched : BitVec 8
  status : BitVec 8
  readState : BitVec 8
  writeState : BitVec 8
  writeLatch : BitVec 8
  rwMode : BitVec 8
  mode : BitVec 8
  bcd : BitVec 8
  gate : BitVec 8
  countLoadTime : BitVec 64
deriving DecidableEq, Repr

/-- All persisted fields of one channel; the next transition time is the last (10_state.md R31). -/
structure PersistedChannel extends PersistedFields where
  nextTransitionTime : BitVec 64
deriving DecidableEq, Repr

/-- The persisted state of version 2: the three channels and the host-timer deadline of channel 0 (10_state.md R31). R31
gives the deadline no width, no place and no form of a cancelled timer: 64 bits, after the channels, `NONE` as
NONE_ENCODING (DESIGN CHOICE, log entry 30). -/
structure Persisted where
  ch0 : PersistedChannel
  ch1 : PersistedChannel
  ch2 : PersistedChannel
  deadline : BitVec 64
deriving DecidableEq, Repr

/-- The persisted state of version 1: no next transition time for channels 1 and 2, and no deadline, which version 2 adds
(10_state.md R31). That channel 0 has its next transition time is DEDUCED (log entry 29). -/
structure PersistedV1 where
  ch0 : PersistedChannel
  ch1 : PersistedFields
  ch2 : PersistedFields
deriving DecidableEq, Repr

/-- The number of a sequencer value (10_state.md R17). -/
def Sequencer.number : Sequencer → BitVec 8
  | .unprogrammed => 0
  | .lsb => 1
  | .msb => 2
  | .word0 => 3
  | .word1 => 4

/-- A time or `NONE` in 64 bits, `NONE` as the parameter NONE_ENCODING says (10_state.md R31 for a next transition time; for
the host-timer deadline a DESIGN CHOICE, log entry 30). -/
def persistTime (p : Params) : Option Int → BitVec 64
  | some t => BitVec.ofInt 64 t
  | none => p.noneEncoding

/-- The persisted image of a channel but its next transition time. -/
def Channel.persistedFields (x : Channel) : PersistedFields where
  count := BitVec.ofNat 32 x.count
  latchedCount := x.latchedCount
  countLatched := x.countLatched.setWidth 8
  statusLatched := (BitVec.ofBool x.statusLatched).setWidth 8
  status := x.status
  readState := x.readState.number
  writeState := x.writeState.number
  writeLatch := x.writeLatch
  rwMode := x.rwMode.setWidth 8
  mode := x.mode.setWidth 8
  bcd := (BitVec.ofBool x.bcd).setWidth 8
  gate := (BitVec.ofBool x.gate).setWidth 8
  countLoadTime := BitVec.ofInt 64 x.countLoadTime

/-- The persisted image of a channel. -/
def Channel.persisted (p : Params) (x : Channel) : PersistedChannel where
  toPersistedFields := x.persistedFields
  nextTransitionTime := persistTime p x.nextTransitionTime

/-- The persisted image of the block, version 2; `irq` is not persisted (10_state.md R31). The form of the deadline is log
entry 30, DESIGN CHOICE. -/
def State.persisted (s : State) : Persisted where
  ch0 := s.ch0.persisted s.params
  ch1 := s.ch1.persisted s.params
  ch2 := s.ch2.persisted s.params
  deadline := persistTime s.params s.timer

/-- The persisted image of the block, version 1 (10_state.md R31). -/
def State.persistedV1 (s : State) : PersistedV1 where
  ch0 := s.ch0.persisted s.params
  ch1 := s.ch1.persistedFields
  ch2 := s.ch2.persistedFields

end Sys2Proof.Machine
end

