-- ==== Sys2Proof/Safety.lean ====
section
/-! DEFINITION. The invariant of the reachable states (10_state.md R27) and the conditions under which an operation runs. -/

namespace Sys2Proof.Machine

/-- The access a sequencer value belongs to, as `rw_mode` numbers it (10_state.md R16, R17). -/
def Sequencer.access : Sequencer → BitVec 2
  | .unprogrammed => 0
  | .lsb => 1
  | .msb => 2
  | .word0 => 3
  | .word1 => 3

/-- What 10_state.md R27 says of one channel at clock value `now`. The upper bounds it gives for `rw_mode` and the two
sequencers, and the other ranges it derives, are those of the fields' types, and item 3 (a latched count is the value read at latch time) speaks of an earlier moment, not of a state. -/
structure Channel.Restorable (x : Channel) (now : Int) : Prop where
  /-- R27 item 1, R11. -/
  count_pos : 1 ≤ x.count
  /-- R27 item 1, R11. -/
  count_le : x.count ≤ 65536
  /-- R27 item 2. -/
  load_past : x.countLoadTime ≤ now
  /-- R27's assertion on the four-state machine: `rw_mode`, `read_state` and `write_state` are all at least 1 on a channel
  that has received a `CW.MODE` since the last reset, and all 0 before that (90_conflicts.md C3). -/
  read_programmed : x.readState = .unprogrammed ↔ x.rwMode = 0
  write_programmed : x.writeState = .unprogrammed ↔ x.rwMode = 0
  /-- R23, R27: bit 6 of a latched status is 0. -/
  status_bit6 : x.status.getLsbD 6 = false

/-- What a restored state must satisfy, and nothing beyond it: 10_state.md R27, and by decision D21 a timer that is
cancelled or holds channel 0's next transition time. R27 item 4 speaks of the moment a time is recorded; item 5 (no other
channel has a timer) is the shape of `State`. -/
structure State.Restorable (s : State) : Prop where
  ch0 : s.ch0.Restorable s.clock
  ch1 : s.ch1.Restorable s.clock
  ch2 : s.ch2.Restorable s.clock
  timer_next : s.timer = none ∨ s.timer = s.ch0.nextTransitionTime

/-- The invariant of one channel of a machine constructed at `tInit` and never restored: beyond 10_state.md R27, what its
own operations keep. -/
structure Channel.Inv (x : Channel) (tInit now : Int) : Prop extends Channel.Restorable x now where
  /-- 20_memory.md R50 premise 2. -/
  load_after_init : tInit ≤ x.countLoadTime
  /-- R17, R16: both sequencers belong to the access the channel was programmed with. -/
  read_access : x.readState.access = x.rwMode
  write_access : x.writeState.access = x.rwMode
  /-- 42_counter_port.md R126: no count latch is pending on an unprogrammed channel. -/
  unprogrammed_unlatched : x.rwMode = 0 → x.countLatched = 0

/-- The invariant of a machine that was constructed and never restored (10_state.md R25, R27). -/
structure State.Inv (s : State) : Prop where
  ch0 : s.ch0.Inv s.params.tInit s.clock
  ch1 : s.ch1.Inv s.params.tInit s.clock
  ch2 : s.ch2.Inv s.params.tInit s.clock
  /-- R25, 44_irq_scheduler.md R143: an armed timer holds channel 0's next transition time, which lies after the load. -/
  timer_next : ∀ deadline, s.timer = some deadline →
    s.ch0.nextTransitionTime = some deadline ∧ s.ch0.countLoadTime < deadline

/-- The states a load may leave, `put` saying what the image puts back. The document does not say whether a scheduler pass
is run after the fields are in place (91_not_in_source.md N11, N12), so both are allowed: left open, log entry 29. -/
def RestoredWith (put : State → Prop) (s : State) : Prop :=
  (put s ∧ s.Restorable) ∨ ∃ r : State, put r ∧ r.Restorable ∧ schedulerPass r r.clock = .ok s

/-- A state a version-2 restore of image `p` may give: the fields of the image, `irq` left open (10_state.md R31, decision
D21). Whether the timer is armed from the deadline of the image is not said (91_not_in_source.md N12), so that a cancelled
timer is allowed beside it: left open, log entry 29. -/
def RestoredV2 (p : Persisted) : State → Prop :=
  RestoredWith fun s =>
    s.ch0.persisted s.params = p.ch0 ∧ s.ch1.persisted s.params = p.ch1 ∧ s.ch2.persisted s.params = p.ch2 ∧
    (s.timer = none ∨ persistTime s.params s.timer = p.deadline)

/-- A state a version-1 restore may give: the next transition times of channels 1 and 2 are not in the image and are
rebuilt as 0 or `NONE` (10_state.md R31, 93_implementation_defined.md U17). The image holds no deadline and the document
does not say whether channel 0's timer is armed (91_not_in_source.md N11): left open, cancelled or at channel 0's next
transition time, as for every restored state (log entry 29). -/
def RestoredV1 (p : PersistedV1) : State → Prop :=
  RestoredWith fun s =>
    s.persistedV1 = p ∧
    (s.ch1.nextTransitionTime = some 0 ∨ s.ch1.nextTransitionTime = none) ∧
    (s.ch2.nextTransitionTime = some 0 ∨ s.ch2.nextTransitionTime = none)

/-- The time model answers for this channel: its mode has a row, or the setting of MODE67 is not `refuse`
(40_time_model.md R99). -/
def Answers (p : Params) (x : Channel) : Prop := OpMode.ofField x.mode ≠ none ∨ p.mode67 ≠ .refuse

/-- The state condition on which a row of the opcode table is selected (its `when` key); true for the other rows. -/
def whenHolds (s : State) : Instr → Bool
  | .wrCntLsb c _ => decide ((s.ch c).writeState = .lsb)
  | .wrCntMsb c _ => decide ((s.ch c).writeState = .msb)
  | .wrCntWord0 c _ => decide ((s.ch c).writeState = .word0)
  | .wrCntWord1 c _ => decide ((s.ch c).writeState = .word1)
  | .wrCnt c _ => decide ((s.ch c).writeState = .unprogrammed)
  | .rdStatus c => (s.ch c).statusLatched
  | .rdLatchLsb c => latchView (s.ch c) 1
  | .rdLatchMsb c => latchView (s.ch c) 2
  | .rdLatchWord0 c => latchView (s.ch c) 3
  | .rdLiveLsb c => liveAt (s.ch c) .lsb
  | .rdLiveMsb c => liveAt (s.ch c) .msb
  | .rdLiveWord0 c => liveAt (s.ch c) .word0
  | .rdLiveWord1 c => liveAt (s.ch c) .word1
  | .rdCnt c => liveAt (s.ch c) .unprogrammed
  | .cwMode .. | .cwLatch _ | .cwReadback _ | .rdCtrl => true
  | .gate .. | .getGate _ | .getCount _ | .getMode _ | .getOut _ => true
  | .hpetDisable | .hpetEnable | .expire | .reset => true

/-- The one channel an operation names, if it names one. -/
def channelOf : Instr → Option Chan
  | .cwMode c _ _ _ | .cwLatch c => some c
  | .wrCntLsb c _ | .wrCntMsb c _ | .wrCntWord0 c _ | .wrCntWord1 c _ | .wrCnt c _ => some c
  | .rdStatus c | .rdLatchLsb c | .rdLatchMsb c | .rdLatchWord0 c => some c
  | .rdLiveLsb c | .rdLiveMsb c | .rdLiveWord0 c | .rdLiveWord1 c | .rdCnt c => some c
  | .gate c _ | .getGate c | .getCount c | .getMode c | .getOut c => some c
  | .cwReadback _ | .rdCtrl | .hpetDisable | .hpetEnable | .expire | .reset => none

/-- The operation is one of the reads of a counter port (42_counter_port.md R118 to R126). -/
def isCounterRead : Instr → Bool
  | .rdStatus _ | .rdLatchLsb _ | .rdLatchMsb _ | .rdLatchWord0 _ => true
  | .rdLiveLsb _ | .rdLiveMsb _ | .rdLiveWord0 _ | .rdLiveWord1 _ | .rdCnt _ => true
  | .cwMode .. | .cwLatch _ | .cwReadback _ | .rdCtrl => false
  | .wrCntLsb .. | .wrCntMsb .. | .wrCntWord0 .. | .wrCntWord1 .. | .wrCnt .. => false
  | .gate .. | .getGate _ | .getCount _ | .getMode _ | .getOut _ => false
  | .hpetDisable | .hpetEnable | .expire | .reset => false

/-- The operation is one of the writes of a counter port (42_counter_port.md R112 to R116). -/
def isCounterWrite : Instr → Bool
  | .wrCntLsb .. | .wrCntMsb .. | .wrCntWord0 .. | .wrCntWord1 .. | .wrCnt .. => true
  | .rdStatus _ | .rdLatchLsb _ | .rdLatchMsb _ | .rdLatchWord0 _ => false
  | .rdLiveLsb _ | .rdLiveMsb _ | .rdLiveWord0 _ | .rdLiveWord1 _ | .rdCnt _ => false
  | .cwMode .. | .cwLatch _ | .cwReadback _ | .rdCtrl => false
  | .gate .. | .getGate _ | .getCount _ | .getMode _ | .getOut _ => false
  | .hpetDisable | .hpetEnable | .expire | .reset => false

/-- The operation is one of the control-port writes (41_control_word.md). -/
def isControlWrite : Instr → Bool
  | .cwMode .. | .cwLatch _ | .cwReadback _ => true
  | .wrCntLsb .. | .wrCntMsb .. | .wrCntWord0 .. | .wrCntWord1 .. | .wrCnt .. => false
  | .rdStatus _ | .rdLatchLsb _ | .rdLatchMsb _ | .rdLatchWord0 _ => false
  | .rdLiveLsb _ | .rdLiveMsb _ | .rdLiveWord0 _ | .rdLiveWord1 _ | .rdCnt _ | .rdCtrl => false
  | .gate .. | .getGate _ | .getCount _ | .getMode _ | .getOut _ => false
  | .hpetDisable | .hpetEnable | .expire | .reset => false

/-- The operations that run a scheduler pass in a state (44_irq_scheduler.md R141); a counter write on channel 0 counts
when it completes a Load, a gate event on channel 0 when its rising edge may reload. -/
def mayRunPass (s : State) : Instr → Bool
  | .wrCntLsb c _ | .wrCntMsb c _ | .wrCntWord1 c _ | .wrCnt c _ => decide (c = .ch0)
  | .gate c level =>
    decide (c = .ch0) &&
      (match OpMode.ofField s.ch0.mode with
       | some .mode0 | some .mode4 => false
       | some .mode1 | some .mode2 | some .mode3 | some .mode5 => !s.ch0.gate && decide (level = 1)
       | none => true)
  | .expire | .hpetEnable | .reset => true
  | .wrCntWord0 .. => false
  | .rdStatus _ | .rdLatchLsb _ | .rdLatchMsb _ | .rdLatchWord0 _ => false
  | .rdLiveLsb _ | .rdLiveMsb _ | .rdLiveWord0 _ | .rdLiveWord1 _ | .rdCnt _ | .rdCtrl => false
  | .cwMode .. | .cwLatch _ | .cwReadback _ => false
  | .getGate _ | .getCount _ | .getMode _ | .getOut _ | .hpetDisable => false

/-- The host timer is armed and the clock has reached its deadline (44_irq_scheduler.md R143). -/
def expireEnabled (s : State) : Prop := ∃ deadline, s.timer = some deadline ∧ deadline ≤ s.clock

/-- The conditions on the state and the operands under which an operation of the spec runs to completion: its operands
are legal, the state selects it, it is not the refused read of the control port, and an `EXPIRE` is enabled. -/
def mayRun (s : State) (i : Instr) : Prop :=
  i.wellFormed = true ∧ whenHolds s i = true ∧ i ≠ .rdCtrl ∧ (i = .expire → expireEnabled s)

/-- The channels whose time-model query or mode case an operation consults in a state (40_time_model.md R82, R99): the
count where a latch takes it, OUT where a status is taken, both by a scheduler pass, the count by a live read, and `GATE`,
which consults the mode alone. `HPET.ENABLE` and `RESET` set mode 3 first. -/
def consults (s : State) : Instr → Chan → Bool
  | .cwLatch c, d => decide (d = c) && decide ((s.ch c).countLatched = 0)
  | .cwReadback r, d =>
    r.selects d &&
      ((r.count && decide ((s.ch d).countLatched = 0)) || (r.status && !(s.ch d).statusLatched))
  | .wrCntLsb c _, d | .wrCntMsb c _, d | .wrCntWord1 c _, d | .wrCnt c _, d => decide (c = .ch0) && decide (d = .ch0)
  | .rdLiveLsb c, d | .rdLiveMsb c, d | .rdLiveWord0 c, d | .rdLiveWord1 c, d | .rdCnt c, d => decide (d = c)
  | .gate c _, d | .getOut c, d => decide (d = c)
  | .expire, d => decide (d = .ch0)
  | .wrCntWord0 .., _ | .cwMode .., _ | .rdCtrl, _ => false
  | .rdStatus _, _ | .rdLatchLsb _, _ | .rdLatchMsb _, _ | .rdLatchWord0 _, _ => false
  | .getGate _, _ | .getCount _, _ | .getMode _, _ => false
  | .hpetDisable, _ | .hpetEnable, _ | .reset, _ => false

/-- The operation is the access of an unprogrammed channel (42_counter_port.md R116, R126). -/
def isUnprogrammedForm : Instr → Bool
  | .wrCnt .. | .rdCnt _ => true
  | .wrCntLsb .. | .wrCntMsb .. | .wrCntWord0 .. | .wrCntWord1 .. => false
  | .rdStatus _ | .rdLatchLsb _ | .rdLatchMsb _ | .rdLatchWord0 _ => false
  | .rdLiveLsb _ | .rdLiveMsb _ | .rdLiveWord0 _ | .rdLiveWord1 _ | .rdCtrl => false
  | .cwMode .. | .cwLatch _ | .cwReadback _ => false
  | .gate .. | .getGate _ | .getCount _ | .getMode _ | .getOut _ => false
  | .hpetDisable | .hpetEnable | .expire | .reset => false

/-- The setting of the two open behaviours gives the operation a meaning in this state: MODE67 for the channels it
consults, UNPROG for the form of an unprogrammed channel (40_time_model.md R99, 42_counter_port.md R116, R126). -/
def permitted (s : State) (i : Instr) : Prop :=
  (∀ c, consults s i c = true → Answers s.params (s.ch c)) ∧
  (isUnprogrammedForm i = true → s.params.unprog ≠ .refuse)

/-- The time a scheduler pass of the operation computes with (44_irq_scheduler.md R141): the stored next transition time
for `EXPIRE`, the present time for the others. -/
def passTime (s : State) (i : Instr) : Option Int :=
  if i = .expire then s.ch0.nextTransitionTime else some s.clock

end Sys2Proof.Machine
end

