-- ==== Sys2Proof/Certificates/Slice0/Obligations.lean ====
section
/-! DEFINITION. The statements about the model, one `def Obligations.<Name> : Prop` each. -/

open Sys2Proof Sys2Proof.Machine

/-! ### Construction and reset -/

/-- Construction is `RESET` at T_INIT applied to the all-zero state, whatever the line's level before it, and leaves the
"After construction" column of 10_state.md R32 (one atomic step: decision D18, log entry 23). -/
def Obligations.ConstructionResult : Prop :=
  ∀ (p : Params) (line : Bool),
    exec .reset (State.beforeReset p line) = .next
      { ch0 := { count := 65536, countLoadTime := p.tInit, mode := 3, bcd := false, gate := true, rwMode := 0,
                 readState := .unprogrammed, writeState := .unprogrammed, writeLatch := 0, latchedCount := 0,
                 countLatched := 0, statusLatched := false, status := 0,
                 nextTransitionTime := some (p.tInit + 27462700) }
        ch1 := { count := 65536, countLoadTime := p.tInit, mode := 3, bcd := false, gate := true, rwMode := 0,
                 readState := .unprogrammed, writeState := .unprogrammed, writeLatch := 0, latchedCount := 0,
                 countLatched := 0, statusLatched := false, status := 0, nextTransitionTime := some 0 }
        ch2 := { count := 65536, countLoadTime := p.tInit, mode := 3, bcd := false, gate := false, rwMode := 0,
                 readState := .unprogrammed, writeState := .unprogrammed, writeLatch := 0, latchedCount := 0,
                 countLatched := 0, statusLatched := false, status := 0, nextTransitionTime := some 0 }
        irq := true
        timer := some (p.tInit + 27462700)
        result := none
        params := p
        clock := p.tInit
        inbox := [] } ∧
    exec .reset (State.beforeReset p line) = .next (State.constructed p)

/-- `RESET` in every state: what it writes and what it leaves (70_reset_and_hazards.md R171, R172; that the five fields of
decision D8 are cleared is the spec's own choice, log entry 16). -/
def Obligations.ResetResult : Prop :=
  ∀ s : State, exec .reset s = .next
    { s with
      ch0 := { s.ch0 with
        count := 65536, countLoadTime := s.clock, mode := 3, gate := true, rwMode := 0, readState := .unprogrammed,
        writeState := .unprogrammed, statusLatched := false, countLatched := 0,
        nextTransitionTime := some (s.clock + 27462700) }
      ch1 := { s.ch1 with
        count := 65536, countLoadTime := s.clock, mode := 3, gate := true, rwMode := 0, readState := .unprogrammed,
        writeState := .unprogrammed, statusLatched := false, countLatched := 0 }
      ch2 := { s.ch2 with
        count := 65536, countLoadTime := s.clock, mode := 3, gate := false, rwMode := 0, readState := .unprogrammed,
        writeState := .unprogrammed, statusLatched := false, countLatched := 0 }
      irq := true
      timer := some (s.clock + 27462700) }

/-! ### The time model -/

/-- Elapsed ticks (40_time_model.md R81): at or after the load the floor of the product over the quotient, so that `d` is
at least `k` exactly when the nanoseconds are at least the ceiling of `k * 10^9 / 1193182`. -/
def Obligations.ElapsedTicks : Prop :=
  ∀ (x : Channel) (t : Int), x.countLoadTime ≤ t →
    ∃ d : Nat, elapsed x t = .ok d ∧ (d : Int) = (t - x.countLoadTime) * 1193182 / 1000000000 ∧
      ∀ k : Nat, k ≤ d ↔ ((k : Int) * 1000000000 + 1193181) / 1193182 ≤ t - x.countLoadTime

/-- `get_count` of a channel in each operating mode (40_time_model.md R83, R84, R85), and its range for a count of at least 1
(R86): 0..65535 in modes 0, 1, 4, 5; 1..count in modes 2 and 3. -/
def Obligations.CounterValue : Prop :=
  ∀ (p : Params) (x : Channel) (t : Int), x.countLoadTime ≤ t → 1 ≤ x.count →
    let d := ((t - x.countLoadTime) * 1193182 / 1000000000).toNat
    ((x.mode = 0 ∨ x.mode = 1 ∨ x.mode = 4 ∨ x.mode = 5) →
      ∃ n, getCount p x t = .ok n ∧ (n : Int) = ((x.count : Int) - d) % 65536 ∧ n ≤ 65535) ∧
    (x.mode = 2 → ∃ n, getCount p x t = .ok n ∧ n = x.count - d % x.count ∧ 1 ≤ n ∧ n ≤ x.count) ∧
    (x.mode = 3 → ∃ n, getCount p x t = .ok n ∧ n = x.count - 2 * d % x.count ∧ 1 ≤ n ∧ n ≤ x.count)

/-- `get_out` of a channel in each operating mode (40_time_model.md R87 to R91). -/
def Obligations.OutLevel : Prop :=
  ∀ (p : Params) (x : Channel) (t : Int), x.countLoadTime ≤ t → x.mode.toNat ≤ 5 →
    let d := ((t - x.countLoadTime) * 1193182 / 1000000000).toNat
    ∃ out, getOut p x t = .ok out ∧
      (x.mode = 0 → (out = true ↔ d ≥ x.count)) ∧
      (x.mode = 1 → (out = true ↔ d < x.count)) ∧
      (x.mode = 2 → (out = true ↔ d % x.count = 0 ∧ d ≠ 0)) ∧
      (x.mode = 3 → (out = true ↔ d % x.count < (x.count + 1) / 2)) ∧
      ((x.mode = 4 ∨ x.mode = 5) → (out = true ↔ d = x.count))

/-- `next_ticks` of a channel in each operating mode (40_time_model.md R92 to R95). -/
def Obligations.NextTicks : Prop :=
  ∀ (p : Params) (x : Channel) (t : Int), x.countLoadTime ≤ t →
    let d := ((t - x.countLoadTime) * 1193182 / 1000000000).toNat
    let base := d / x.count * x.count
    let half := (x.count + 1) / 2
    ((x.mode = 0 ∨ x.mode = 1) → nextTicks p x t = .ok (if d < x.count then some x.count else none)) ∧
    (x.mode = 2 → nextTicks p x t =
      .ok (some (if d - base = 0 ∧ d ≠ 0 then base + x.count else base + x.count + 1))) ∧
    (x.mode = 3 → nextTicks p x t = .ok (some (if d - base < half then base + half else base + x.count))) ∧
    ((x.mode = 4 ∨ x.mode = 5) → nextTicks p x t =
      .ok (if d < x.count then some x.count else if d = x.count then some (x.count + 1) else none))

/-- Conversion to host time with the strict-future fix-up (40_time_model.md R96), in every mode and setting. That the
conversion rounds down is the spec's own choice (decision D3, log entry 15: DESIGN CHOICE), that a refused query stays refused
the model's. -/
def Obligations.NextTransitionConversion : Prop :=
  ∀ (p : Params) (x : Channel) (t : Int),
    (∀ r, nextTicks p x t = .error r → nextTransition p x t = .error r) ∧
    (nextTicks p x t = .ok none → nextTransition p x t = .ok none) ∧
    (∀ n : Nat, nextTicks p x t = .ok (some n) →
      let h := x.countLoadTime + (n : Int) * 1000000000 / 1193182
      nextTransition p x t = .ok (some (if h ≤ t then t + 1 else h))) ∧
    (∀ h, nextTransition p x t = .ok (some h) → t < h)

/-- Round trip of the two floors (40_time_model.md R97 fact 1): the host time of tick `n` lies in tick `n - 1`, but for the
multiples of 596591. Both floors are the spec's own choice (decision D3, log entry 15: DESIGN CHOICE). -/
def Obligations.TickTimeRoundTrip : Prop :=
  ∀ n : Nat, 1 ≤ n → timeToTicks (ticksToTime n) = if 596591 ∣ n then n else n - 1

/-- In modes 0, 1, 3 (count at least 2), 4 and 5 `next_ticks` is the earliest tick after `d` at which OUT changes, and none
exactly when it never changes again (40_time_model.md R97 fact 5). -/
def Obligations.NextTicksIsEarliestChange : Prop :=
  ∀ (m : OpMode) (count d : Nat), 1 ≤ count → m ≠ .mode2 → (m = .mode3 → 2 ≤ count) →
    (∀ n, nextTicksAt m count d = some n →
      d < n ∧ outAt m count n ≠ outAt m count d ∧ ∀ k, d ≤ k → k < n → outAt m count k = outAt m count d) ∧
    (nextTicksAt m count d = none ↔ ∀ k, d ≤ k → outAt m count k = outAt m count d)

/-- In mode 2 the table never gives the earliest change of OUT for a count of at least 2, yet OUT does change at the tick
it gives (40_time_model.md R97 facts 3 and 4). -/
def Obligations.Mode2NextTicksSkipsAnEdge : Prop :=
  ∀ (count d n : Nat), 2 ≤ count → nextTicksAt .mode2 count d = some n →
    (∃ k, d < k ∧ k < n ∧ outAt .mode2 count k ≠ outAt .mode2 count d) ∧
    outAt .mode2 count n ≠ outAt .mode2 count (n - 1)

/-- Periodicity of OUT (40_time_model.md R97 fact 6): mode 3 from tick 0, mode 2 from tick 1; the one exception is mode 2
at tick 0, where OUT is 0 and a whole period later it is 1. -/
def Obligations.OutIsPeriodic : Prop :=
  ∀ count d : Nat, 1 ≤ count →
    outAt .mode3 count (d + count) = outAt .mode3 count d ∧
    (1 ≤ d → outAt .mode2 count (d + count) = outAt .mode2 count d) ∧
    outAt .mode2 count 0 = false ∧ outAt .mode2 count count = true

/-- Two-step expiry (40_time_model.md R97 fact 2): outside mode 2, a query at the time predicted for a tick that is no
multiple of 596591 finds the tick before it and answers one nanosecond later, where the tick has come. It rests on the
downward rounding of the conversion, the spec's own choice (decision D3, log entry 15: DESIGN CHOICE). -/
def Obligations.TwoStepExpiry : Prop :=
  ∀ (p : Params) (x : Channel) (t : Int) (m : OpMode) (n : Nat),
    OpMode.ofField x.mode = some m → m ≠ .mode2 → 1 ≤ x.count → nextTicks p x t = .ok (some n) → ¬ 596591 ∣ n →
    let h := x.countLoadTime + (n : Int) * 1000000000 / 1193182
    elapsed x h = .ok (n - 1) ∧ nextTransition p x h = .ok (some (h + 1)) ∧ elapsed x (h + 1) = .ok n

/-- What modes 6 and 7 do under each setting of MODE67 (40_time_model.md R99, 93_implementation_defined.md U1): refused, as
the source's default arms, as modes 2 and 3, or the free values of the model (log entry 5). -/
def Obligations.Modes6And7FollowTheSetting : Prop :=
  ∀ (p : Params) (x : Channel) (t : Int), (x.mode = 6 ∨ x.mode = 7) → x.countLoadTime ≤ t →
    (p.mode67 = .refuse → getCount p x t = .error .mode67 ∧ getOut p x t = .error .mode67 ∧
      nextTransition p x t = .error .mode67) ∧
    (p.mode67 = .sourceDefaultArms → getCount p x t = getCount p { x with mode := 2 } t ∧
      getOut p x t = getOut p { x with mode := 0 } t ∧
      nextTransition p x t = nextTransition p { x with mode := 0 } t) ∧
    (p.mode67 = .aliased → getCount p x t = getCount p { x with mode := x.mode - 4 } t ∧
      getOut p x t = getOut p { x with mode := x.mode - 4 } t ∧
      nextTransition p x t = nextTransition p { x with mode := x.mode - 4 } t) ∧
    (p.mode67 = .free → ∃ n b e, getCount p x t = .ok n ∧ n < 65536 ∧ getOut p x t = .ok b ∧
      nextTransition p x t = .ok e)

/-- A query before the load is refused, whatever the mode (40_time_model.md R81, decision D26: log entry 11), and so is
every operation that makes one: `GET.OUT`, a latch, a live read. -/
def Obligations.QueryBeforeLoadStops : Prop :=
  ∀ (s : State) (c : Chan), s.clock < (s.ch c).countLoadTime →
    exec (.getOut c) s = .refused .timeBeforeLoad ∧
    ((s.ch c).countLatched = 0 → exec (.cwLatch c) s = .refused .timeBeforeLoad) ∧
    (liveView (s.ch c) = true → (s.ch c).readState ≠ .unprogrammed →
      exec (select s (.rdCnt c)) s = .refused .timeBeforeLoad)

/-! ### Control-port operations -/

/-- `CW.MODE` (41_control_word.md R101): the whole next state, in every state and for every operand. -/
def Obligations.CwModeResult : Prop :=
  ∀ (c : Chan) (a : Access) (mode : BitVec 3) (bcd : Bool) (s : State),
    exec (.cwMode c a mode bcd) s = .next (s.setCh c
      { s.ch c with
        rwMode := match a with | .lsb => 1 | .msb => 2 | .word => 3
        readState := match a with | .lsb => .lsb | .msb => .msb | .word => .word0
        writeState := match a with | .lsb => .lsb | .msb => .msb | .word => .word0
        mode := mode
        bcd := bcd })

/-- `CW.LATCH` with nothing pending takes the snapshot (41_control_word.md R100, R102; the reduction to 16 bits is decision
D16, log entry 19); with a latch pending it changes nothing. In modes 6 and 7 the snapshot is what MODE67 gives. -/
def Obligations.CwLatchResult : Prop :=
  ∀ (c : Chan) (s : State),
    ((s.ch c).countLatched ≠ 0 → exec (.cwLatch c) s = .next s) ∧
    ((s.ch c).countLatched = 0 → (s.ch c).countLoadTime ≤ s.clock → Answers s.params (s.ch c) →
      ∃ n, getCount s.params (s.ch c) s.clock = .ok n ∧
        exec (.cwLatch c) s = .next (s.setCh c
          { s.ch c with latchedCount := BitVec.ofNat 16 n, countLatched := (s.ch c).rwMode }))

/-- Latch idempotence (95_test_vectors.md property 5): after a latch on a programmed channel a second latch, at any later
time and with no read between, is a no-op. -/
def Obligations.SecondLatchIsIgnored : Prop :=
  ∀ (c : Chan) (s t : State) (later : Int), (s.ch c).rwMode ≠ 0 → exec (.cwLatch c) s = .next t →
    exec (.cwLatch c) { t with clock := later } = .next { t with clock := later } ∧
    exec (.cwReadback ⟨true, false, decide (c = .ch0), decide (c = .ch1), decide (c = .ch2)⟩)
      { t with clock := later } = .next { t with clock := later }

/-- `CW.READBACK` (41_control_word.md R103): all selected channels at one `now`; the count part where no count is pending,
the status part where no status is pending; an unselected channel keeps every field. A read-back that selects no channel or
latches nothing changes no state, even one in which a query would be refused (corner case c). -/
def Obligations.CwReadbackResult : Prop :=
  ∀ (r : ReadBack) (s : State),
    (((∀ c, r.selects c = false) ∨ (r.count = false ∧ r.status = false)) → exec (.cwReadback r) s = .next s) ∧
    ((∀ c, r.selects c = true → (s.ch c).countLoadTime ≤ s.clock ∧ Answers s.params (s.ch c)) →
    ∃ (n : Chan → Nat) (o : Chan → Bool) (t : State),
      (∀ c, r.selects c = true →
        getCount s.params (s.ch c) s.clock = .ok (n c) ∧ getOut s.params (s.ch c) s.clock = .ok (o c)) ∧
      exec (.cwReadback r) s = .next t ∧
      t = { s with ch0 := t.ch0, ch1 := t.ch1, ch2 := t.ch2 } ∧
      ∀ c, t.ch c =
        if r.selects c = true then
          { s.ch c with
            latchedCount := if r.count = true ∧ (s.ch c).countLatched = 0 then BitVec.ofNat 16 (n c)
              else (s.ch c).latchedCount
            countLatched := if r.count = true ∧ (s.ch c).countLatched = 0 then (s.ch c).rwMode
              else (s.ch c).countLatched
            status := if r.status = true ∧ (s.ch c).statusLatched = false then
                statusByte (o c) (s.ch c).rwMode (s.ch c).mode (s.ch c).bcd
              else (s.ch c).status
            statusLatched := (s.ch c).statusLatched || r.status }
        else s.ch c)

/-- The status byte (30_encoding.md R66): bit 7 is OUT at the time of the read-back, bit 6 is 0, and the low six bits repeat
the control word that programmed the channel. -/
def Obligations.StatusRepeatsControlWord : Prop :=
  ∀ (c : Chan) (a : Access) (mode : BitVec 3) (bcd : Bool) (r : ReadBack) (s t u : State),
    exec (.cwMode c a mode bcd) s = .next t → (s.ch c).statusLatched = false → r.selects c = true → r.status = true →
    exec (.cwReadback r) t = .next u →
    (u.ch c).statusLatched = true ∧ (u.ch c).status &&& 0x3F = modeByte c a mode bcd &&& 0x3F ∧
    (u.ch c).status.getLsbD 6 = false ∧ getOut t.params (t.ch c) t.clock = .ok ((u.ch c).status.getLsbD 7)

/-- No control-port operation touches the interrupt schedule, a count, a load time, a gate or a write latch
(41_control_word.md R105 and the opening of the file). -/
def Obligations.ControlWritesKeepTheSchedule : Prop :=
  ∀ (i : Instr) (s t : State), isControlWrite i = true → exec i s = .next t →
    t.irq = s.irq ∧ t.timer = s.timer ∧ t.result = s.result ∧
    ∀ c, (t.ch c).nextTransitionTime = (s.ch c).nextTransitionTime ∧ (t.ch c).count = (s.ch c).count ∧
      (t.ch c).countLoadTime = (s.ch c).countLoadTime ∧ (t.ch c).gate = (s.ch c).gate ∧
      (t.ch c).writeLatch = (s.ch c).writeLatch

/-! ### Counter-port writes -/

/-- `WR.CNT.LSB` and `WR.CNT.MSB` (42_counter_port.md R112, R113, R110): the whole next state; on channel 0 a scheduler pass
follows (44_irq_scheduler.md R140). -/
def Obligations.WrCntByteResults : Prop :=
  ∀ (c : Chan) (val : Byte) (s : State) (i : Instr) (n : Nat), (c = .ch0 → Answers s.params s.ch0) →
    ((i = .wrCntLsb c val ∧ (s.ch c).writeState = .lsb ∧ n = val.toNat) ∨
      (i = .wrCntMsb c val ∧ (s.ch c).writeState = .msb ∧ n = 256 * val.toNat)) →
    let v := if n = 0 then 65536 else n
    (c ≠ .ch0 → exec i s = .next (s.setCh c { s.ch c with count := v, countLoadTime := s.clock })) ∧
    (c = .ch0 → ∃ e b,
      nextTransition s.params { s.ch0 with count := v, countLoadTime := s.clock } s.clock = .ok e ∧
      getOut s.params { s.ch0 with count := v, countLoadTime := s.clock } s.clock = .ok b ∧
      exec i s = .next
        { s with
          irq := b
          timer := e
          ch0 := { s.ch0 with count := v, countLoadTime := s.clock, nextTransitionTime := e } })

/-- `WR.CNT.WORD0` (42_counter_port.md R114): the byte is held and nothing is loaded. -/
def Obligations.WrCntWord0Result : Prop :=
  ∀ (c : Chan) (val : Byte) (s : State), (s.ch c).writeState = .word0 →
    exec (.wrCntWord0 c val) s = .next (s.setCh c { s.ch c with writeLatch := val, writeState := .word1 })

/-- `WR.CNT.WORD1` (42_counter_port.md R115, R110): the count is `write_latch + 256 * val`. -/
def Obligations.WrCntWord1Result : Prop :=
  ∀ (c : Chan) (val : Byte) (s : State), (s.ch c).writeState = .word1 → (c = .ch0 → Answers s.params s.ch0) →
    let n := (s.ch c).writeLatch.toNat + 256 * val.toNat
    let v := if n = 0 then 65536 else n
    (c ≠ .ch0 → exec (.wrCntWord1 c val) s =
      .next (s.setCh c { s.ch c with count := v, countLoadTime := s.clock, writeState := .word0 })) ∧
    (c = .ch0 → ∃ e b,
      nextTransition s.params { s.ch0 with count := v, countLoadTime := s.clock } s.clock = .ok e ∧
      getOut s.params { s.ch0 with count := v, countLoadTime := s.clock } s.clock = .ok b ∧
      exec (.wrCntWord1 c val) s = .next
        { s with
          irq := b
          timer := e
          ch0 := { s.ch0 with
            count := v, countLoadTime := s.clock, writeState := .word0, nextTransitionTime := e } })

/-- A counter write on a channel not programmed since reset (42_counter_port.md R116): refused under UNPROG = refuse; under
as_LSB (93_implementation_defined.md U2, log entry 4) it loads the byte and the sequencer stays 0. -/
def Obligations.WrCntUnprogrammed : Prop :=
  ∀ (c : Chan) (val : Byte) (s : State), (s.ch c).writeState = .unprogrammed →
    let v := if val.toNat = 0 then 65536 else val.toNat
    (s.params.unprog = .refuse → exec (.wrCnt c val) s = .refused .unprogrammed) ∧
    (s.params.unprog = .asLsb → c ≠ .ch0 →
      exec (.wrCnt c val) s = .next (s.setCh c { s.ch c with count := v, countLoadTime := s.clock })) ∧
    (s.params.unprog = .asLsb → c = .ch0 → Answers s.params s.ch0 → ∃ e b,
      nextTransition s.params { s.ch0 with count := v, countLoadTime := s.clock } s.clock = .ok e ∧
      getOut s.params { s.ch0 with count := v, countLoadTime := s.clock } s.clock = .ok b ∧
      exec (.wrCnt c val) s = .next
        { s with
          irq := b
          timer := e
          ch0 := { s.ch0 with count := v, countLoadTime := s.clock, nextTransitionTime := e } })

/-- Right after a completed count write on channel 0 in an operating mode (42_counter_port.md R110, 44_irq_scheduler.md R140,
60_exceptions.md R154): the line shows OUT at tick 0, which is 1 in modes 1 and 3 and 0 in the others, and the timer is
armed for the first tick of the table (40_time_model.md R87 to R96). The deadline is rounded down by the spec's own choice
(decision D3, log entry 15: DESIGN CHOICE). -/
def Obligations.LoadArmsTheTimer : Prop :=
  ∀ (i : Instr) (val : Byte) (s t : State) (m : OpMode),
    (i = .wrCntLsb .ch0 val ∨ i = .wrCntMsb .ch0 val ∨ i = .wrCntWord1 .ch0 val) →
    OpMode.ofField s.ch0.mode = some m → exec i s = .next t →
    1 ≤ t.ch0.count ∧ t.ch0.countLoadTime = s.clock ∧
    (t.irq = true ↔ m = .mode1 ∨ m = .mode3) ∧
    (let n := match m with
        | .mode2 => t.ch0.count + 1
        | .mode3 => (t.ch0.count + 1) / 2
        | .mode0 | .mode1 | .mode4 | .mode5 => t.ch0.count
      t.timer = some (s.clock + (n : Int) * 1000000000 / 1193182) ∧ t.ch0.nextTransitionTime = t.timer)

/-- Round trip of a two-byte write (42_counter_port.md R128 item 1): low byte, then high byte at any later time, and
`GET.COUNT` returns the number they spell, 65536 for two zeros. -/
def Obligations.TwoByteWriteRoundTrip : Prop :=
  ∀ (c : Chan) (lo hi : Byte) (s t u v : State) (later : Int), (s.ch c).writeState = .word0 →
    exec (.wrCntWord0 c lo) s = .next t → exec (.wrCntWord1 c hi) { t with clock := later } = .next u →
    exec (.getCount c) u = .next v →
    (u.ch c).writeState = .word0 ∧ (u.ch c).countLoadTime = later ∧
    v.result = some (.count (if lo = 0 ∧ hi = 0 then 65536 else lo.toNat + 256 * hi.toNat))

/-! ### Counter-port reads -/

/-- `RD.STATUS` (42_counter_port.md R118). -/
def Obligations.RdStatusResult : Prop :=
  ∀ (c : Chan) (s : State), (s.ch c).statusLatched = true →
    exec (.rdStatus c) s = .next
      { s.setCh c { s.ch c with statusLatched := false } with result := some (.byte (s.ch c).status) }

/-- `RD.LATCH.LSB`, `RD.LATCH.MSB` and `RD.LATCH.WORD0` (42_counter_port.md R119, R120, R121). -/
def Obligations.RdLatchResults : Prop :=
  ∀ (c : Chan) (s : State), (s.ch c).statusLatched = false →
    ((s.ch c).countLatched = 1 → exec (.rdLatchLsb c) s = .next
      { s.setCh c { s.ch c with countLatched := 0 } with
        result := some (.byte ((s.ch c).latchedCount.extractLsb' 0 8)) }) ∧
    ((s.ch c).countLatched = 2 → exec (.rdLatchMsb c) s = .next
      { s.setCh c { s.ch c with countLatched := 0 } with
        result := some (.byte ((s.ch c).latchedCount.extractLsb' 8 8)) }) ∧
    ((s.ch c).countLatched = 3 → exec (.rdLatchWord0 c) s = .next
      { s.setCh c { s.ch c with countLatched := 2 } with
        result := some (.byte ((s.ch c).latchedCount.extractLsb' 0 8)) })

/-- `RD.LIVE.LSB`, `.MSB`, `.WORD0` and `.WORD1` (42_counter_port.md R122 to R125): a byte of `get_count` at the read's own
time; the byte forms leave every field, the word forms toggle the read sequencer. -/
def Obligations.RdLiveResults : Prop :=
  ∀ (c : Chan) (s : State), (s.ch c).statusLatched = false → (s.ch c).countLatched = 0 →
    (s.ch c).countLoadTime ≤ s.clock → Answers s.params (s.ch c) →
    ∃ n, getCount s.params (s.ch c) s.clock = .ok n ∧
      ((s.ch c).readState = .lsb → exec (.rdLiveLsb c) s = .next
        { s with result := some (.byte (BitVec.ofNat 8 (n % 256))) }) ∧
      ((s.ch c).readState = .msb → exec (.rdLiveMsb c) s = .next
        { s with result := some (.byte (BitVec.ofNat 8 (n / 256 % 256))) }) ∧
      ((s.ch c).readState = .word0 → exec (.rdLiveWord0 c) s = .next
        { s.setCh c { s.ch c with readState := .word1 } with result := some (.byte (BitVec.ofNat 8 (n % 256))) }) ∧
      ((s.ch c).readState = .word1 → exec (.rdLiveWord1 c) s = .next
        { s.setCh c { s.ch c with readState := .word0 } with result := some (.byte (BitVec.ofNat 8 (n / 256 % 256))) })

/-- A live read on a channel not programmed since reset (42_counter_port.md R126): refused under UNPROG = refuse; under
as_LSB (93_implementation_defined.md U2, log entry 4) it returns the low byte of the live count and changes no field. -/
def Obligations.RdCntUnprogrammed : Prop :=
  ∀ (c : Chan) (s : State), (s.ch c).statusLatched = false → (s.ch c).countLatched = 0 →
    (s.ch c).readState = .unprogrammed →
    (s.params.unprog = .refuse → exec (.rdCnt c) s = .refused .unprogrammed) ∧
    (s.params.unprog = .asLsb → (s.ch c).countLoadTime ≤ s.clock → Answers s.params (s.ch c) →
      ∃ n, getCount s.params (s.ch c) s.clock = .ok n ∧
        exec (.rdCnt c) s = .next { s with result := some (.byte (BitVec.ofNat 8 (n % 256))) })

/-- A read of offset 3 is refused in every state (42_counter_port.md R127, decision D6: log entry 9), by the operation and by
the step that presents it. -/
def Obligations.RdCtrlStops : Prop :=
  ∀ (s : State) (data wait : Nat) (rest : List Event),
    exec .rdCtrl s = .refused .controlPortRead ∧
    step { s with inbox := ⟨wait, .port ⟨false, s.params.ioBase + 3, 1, data⟩⟩ :: rest } = .refused .controlPortRead

/-- What a counter read may change (20_memory.md R44, 42_counter_port.md R117): of its own channel the two latch flags and the
read sequencer; nothing of another channel, and neither line nor timer. -/
def Obligations.ReadsChangeOnlyTheirFlags : Prop :=
  ∀ (i : Instr) (c : Chan) (s t : State), isCounterRead i = true → channelOf i = some c → exec i s = .next t →
    ∃ (q : Sequencer) (k : BitVec 2) (l : Bool) (b : Byte),
      t = { s.setCh c { s.ch c with readState := q, countLatched := k, statusLatched := l } with
        result := some (.byte b) }

/-- A latched two-byte read returns one snapshot (42_counter_port.md R128 item 2, 95_test_vectors.md property 6): the low
byte, then the high byte of the count at the latch, whenever they are read; afterwards nothing is pending and the read
sequencer has not moved. -/
def Obligations.LatchedReadIsOneSnapshot : Prop :=
  ∀ (c : Chan) (s t u v : State) (n : Nat) (t1 t2 : Int), (s.ch c).statusLatched = false →
    (s.ch c).countLatched = 0 → (s.ch c).rwMode = 3 → getCount s.params (s.ch c) s.clock = .ok n →
    exec (.cwLatch c) s = .next t →
    exec (select { t with clock := t1 } (.rdCnt c)) { t with clock := t1 } = .next u →
    exec (select { u with clock := t2 } (.rdCnt c)) { u with clock := t2 } = .next v →
    ∃ lo hi : Byte, u.result = some (.byte lo) ∧ v.result = some (.byte hi) ∧
      lo.toNat + 256 * hi.toNat = n % 65536 ∧ (v.ch c).countLatched = 0 ∧ (v.ch c).readState = (s.ch c).readState

/-- After a read-back of count and status of a channel in `rw_mode` 3 with nothing pending, the next three reads return the
status, the low and the high byte, and the fourth takes the live view (41_control_word.md R104). -/
def Obligations.StatusIsReadBeforeCount : Prop :=
  ∀ (c : Chan) (r : ReadBack) (s t u v w : State), (s.ch c).statusLatched = false → (s.ch c).countLatched = 0 →
    (s.ch c).rwMode = 3 → r.selects c = true → r.count = true → r.status = true →
    exec (.cwReadback r) s = .next t →
    exec (select t (.rdCnt c)) t = .next u → exec (select u (.rdCnt c)) u = .next v →
    exec (select v (.rdCnt c)) v = .next w →
    select t (.rdCnt c) = .rdStatus c ∧ u.result = some (.byte (t.ch c).status) ∧
    select u (.rdCnt c) = .rdLatchWord0 c ∧ v.result = some (.byte ((t.ch c).latchedCount.extractLsb' 0 8)) ∧
    select v (.rdCnt c) = .rdLatchMsb c ∧ w.result = some (.byte ((t.ch c).latchedCount.extractLsb' 8 8)) ∧
    select w (.rdCnt c) = selectLive (w.ch c) c

/-- What a counter write may change (20_memory.md R45, R47, 42_counter_port.md R111): of its own channel the count, the load
time, the write sequencer and the write latch, and on channel 0 the next transition time, the line and the timer as well;
never the read sequencer, a latch, the mode or the gate. -/
def Obligations.WritesChangeOnlyTheirFields : Prop :=
  ∀ (i : Instr) (c : Chan) (s t : State), isCounterWrite i = true → channelOf i = some c → exec i s = .next t →
    ∃ (n : Nat) (l : Int) (q : Sequencer) (w : Byte) (e : Option Int) (b : Bool) (d : Option Int),
      t = { s.setCh c { s.ch c with
              count := n, countLoadTime := l, writeState := q, writeLatch := w, nextTransitionTime := e } with
            irq := b, timer := d } ∧
      (c ≠ .ch0 → e = (s.ch c).nextTransitionTime ∧ b = s.irq ∧ d = s.timer)

/-! ### Selection of the sub-form -/

/-- The state selects the sub-form whose row of the opcode table holds (42_counter_port.md R111, R117), it is the only one
that holds, and the selected operation is never refused as not selected. -/
def Obligations.SelectionFollowsTheTable : Prop :=
  ∀ (s : State) (i : Instr),
    whenHolds s (select s i.asDecoded) = true ∧ (select s i.asDecoded).asDecoded = i.asDecoded ∧
    (whenHolds s i = true → select s i.asDecoded = i) ∧
    (whenHolds s i = false → exec i s = .refused .notSelected) ∧
    exec (select s i.asDecoded) s ≠ .refused .notSelected

/-! ### Gate, getters, HPET hooks -/

/-- `GATE` in the six operating modes (43_gate_and_api.md R130, R131): a rising edge in modes 1, 2, 3 and 5 reloads from the
existing count, channel 0 with a scheduler pass; in every other case (modes 0 and 4, a falling edge, an unchanged level) the
level is stored and nothing else happens. -/
def Obligations.GateInOperatingModes : Prop :=
  ∀ (c : Chan) (s : State),
    (((s.ch c).mode = 1 ∨ (s.ch c).mode = 2 ∨ (s.ch c).mode = 3 ∨ (s.ch c).mode = 5) → (s.ch c).gate = false →
      (c ≠ .ch0 →
        exec (.gate c 1) s = .next (s.setCh c { s.ch c with countLoadTime := s.clock, gate := true })) ∧
      (c = .ch0 → ∃ e b,
        nextTransition s.params { s.ch0 with countLoadTime := s.clock } s.clock = .ok e ∧
        getOut s.params { s.ch0 with countLoadTime := s.clock } s.clock = .ok b ∧
        exec (.gate c 1) s = .next
          { s with
            irq := b
            timer := e
            ch0 := { s.ch0 with countLoadTime := s.clock, gate := true, nextTransitionTime := e } })) ∧
    (∀ level, level ≤ 1 →
      ((s.ch c).mode = 0 ∨ (s.ch c).mode = 4 ∨ ((s.ch c).mode.toNat ≤ 5 ∧ ((s.ch c).gate = true ∨ level = 0))) →
      exec (.gate c level) s = .next (s.setCh c { s.ch c with gate := decide (level = 1) }))

/-- `GATE` with a legal level runs in every mode the time model answers in: it stores the level and either keeps load time,
line and timer or reloads, and touches nothing else; only a gate of channel 0 touches line and timer. In modes 6 and 7
(43_gate_and_api.md R130 corner case e, 93_implementation_defined.md U1) it stores the level only under source_default_arms,
acts as in modes 2 and 3 when aliased, and is refused under refuse. A level outside 0 and 1 is refused (decision D24, log
entry 12). -/
def Obligations.GateRunsOrStops : Prop :=
  ∀ (c : Chan) (level : Nat) (s : State),
    (level ≤ 1 → Answers s.params (s.ch c) → ∃ (l : Int) (e : Option Int) (b : Bool) (d : Option Int),
      exec (.gate c level) s = .next
        { s.setCh c { s.ch c with countLoadTime := l, gate := decide (level = 1), nextTransitionTime := e } with
          irq := b, timer := d } ∧
      ((l = (s.ch c).countLoadTime ∧ e = (s.ch c).nextTransitionTime ∧ b = s.irq ∧ d = s.timer) ∨
        (l = s.clock ∧ (c ≠ .ch0 → e = (s.ch c).nextTransitionTime ∧ b = s.irq ∧ d = s.timer)))) ∧
    (1 < level → exec (.gate c level) s = .refused .gateLevel) ∧
    (level ≤ 1 → ¬ Answers s.params (s.ch c) → exec (.gate c level) s = .refused .mode67) ∧
    (((s.ch c).mode = 6 ∨ (s.ch c).mode = 7) →
      (s.params.mode67 = .sourceDefaultArms → level ≤ 1 →
        exec (.gate c level) s = .next (s.setCh c { s.ch c with gate := decide (level = 1) })) ∧
      (s.params.mode67 = .aliased → level ≤ 1 → ((s.ch c).gate = true ∨ level = 0) →
        exec (.gate c level) s = .next (s.setCh c { s.ch c with gate := decide (level = 1) })) ∧
      (s.params.mode67 = .aliased → (s.ch c).gate = false →
        (c ≠ .ch0 →
          exec (.gate c 1) s = .next (s.setCh c { s.ch c with countLoadTime := s.clock, gate := true })) ∧
        (c = .ch0 → ∃ e b,
          nextTransition s.params { s.ch0 with countLoadTime := s.clock } s.clock = .ok e ∧
          getOut s.params { s.ch0 with countLoadTime := s.clock } s.clock = .ok b ∧
          exec (.gate c 1) s = .next
            { s with
              irq := b
              timer := e
              ch0 := { s.ch0 with countLoadTime := s.clock, gate := true, nextTransitionTime := e } })))

/-- The four getters (43_gate_and_api.md R132 to R135): the value returned, and no state change (that a getter has no side
effect is decision D20, log entry 18). -/
def Obligations.GetterResults : Prop :=
  ∀ (c : Chan) (s : State),
    exec (.getGate c) s = .next { s with result := some (.gate (s.ch c).gate) } ∧
    exec (.getCount c) s = .next { s with result := some (.count (s.ch c).count) } ∧
    exec (.getMode c) s = .next { s with result := some (.mode (s.ch c).mode) } ∧
    ((s.ch c).countLoadTime ≤ s.clock → Answers s.params (s.ch c) → ∃ b, getOut s.params (s.ch c) s.clock = .ok b ∧
      exec (.getOut c) s = .next { s with result := some (.out b) })

/-- `HPET.DISABLE` (43_gate_and_api.md R136) cancels the timer and changes nothing else (decision D11, log entry 20); the
expiry that was pending can then not occur. -/
def Obligations.HpetDisableResult : Prop :=
  ∀ s : State, exec .hpetDisable s = .next { s with timer := none } ∧
    exec .expire { s with timer := none } = .refused .expireNotArmed

/-- `HPET.ENABLE` (43_gate_and_api.md R137): the end state, in every state. -/
def Obligations.HpetEnableResult : Prop :=
  ∀ s : State, exec .hpetEnable s = .next
    { s with
      irq := true
      timer := some (s.clock + 27462700)
      ch0 := { s.ch0 with
        mode := 3, gate := true, count := 65536, countLoadTime := s.clock,
        nextTransitionTime := some (s.clock + 27462700) } }

/-! ### The scheduler -/

/-- `EXPIRE` (44_irq_scheduler.md R142, R140): a pass at the stored next transition time, and not at the present time. It
cannot occur while the timer is cancelled or before the deadline (R143; never early is decision D13, log entry 13). -/
def Obligations.ExpireResult : Prop :=
  ∀ s : State,
    (∀ deadline t : Int, s.timer = some deadline → deadline ≤ s.clock → s.ch0.nextTransitionTime = some t →
      s.ch0.countLoadTime ≤ t → Answers s.params s.ch0 →
      ∃ e b, nextTransition s.params s.ch0 t = .ok e ∧ getOut s.params s.ch0 t = .ok b ∧
        exec .expire s = .next { s with irq := b, timer := e, ch0 := { s.ch0 with nextTransitionTime := e } }) ∧
    (s.timer = none → exec .expire s = .refused .expireNotArmed) ∧
    (∀ deadline t : Int, s.timer = some deadline → s.ch0.nextTransitionTime = some t → s.clock < deadline →
      exec .expire s = .refused .expireNotDue)

/-- A chain of expiries has strictly increasing deadlines (44_irq_scheduler.md R146), in every mode and setting. -/
def Obligations.ExpiryDeadlinesIncrease : Prop :=
  ∀ (s t : State) (now next : Int), s.ch0.nextTransitionTime = some now → exec .expire s = .next t →
    t.timer = some next → now < next ∧ t.ch0.nextTransitionTime = some next

/-- Only the operations of 44_irq_scheduler.md R141 run a pass. Any other leaves the line and channel 0's next transition
time, and but for `HPET.DISABLE` the timer. Every operation that runs one (in modes 6 and 7 whether `GATE` does is MODE67's)
leaves the line at OUT and the timer at the next transition, both of channel 0 at the time of R141, and the stored next
transition time equal to the timer (R140). -/
def Obligations.OnlyPassesMoveTheLine : Prop :=
  ∀ (i : Instr) (s t : State), exec i s = .next t →
    (mayRunPass s i = false →
      t.irq = s.irq ∧ t.ch0.nextTransitionTime = s.ch0.nextTransitionTime ∧ (i ≠ .hpetDisable → t.timer = s.timer)) ∧
    (mayRunPass s i = true → (∀ level, i = .gate .ch0 level → OpMode.ofField s.ch0.mode ≠ none) →
      ∃ now, passTime s i = some now ∧ getOut t.params t.ch0 now = .ok t.irq ∧
        nextTransition t.params t.ch0 now = .ok t.timer ∧ t.ch0.nextTransitionTime = t.timer) ∧
    (t.irq ≠ s.irq → t.timer = t.ch0.nextTransitionTime) ∧
    t.ch1.nextTransitionTime = s.ch1.nextTransitionTime ∧ t.ch2.nextTransitionTime = s.ch2.nextTransitionTime

/-! ### Whole-machine rules -/

/-- An operation that names a channel changes no other channel (10_state.md R10, 43_gate_and_api.md R138), and one that
names channel 1 or 2 changes neither the line nor the timer (20_memory.md R45). -/
def Obligations.ChannelsAreSeparate : Prop :=
  ∀ (i : Instr) (c : Chan) (s t : State), channelOf i = some c → exec i s = .next t →
    (∀ d, d ≠ c → t.ch d = s.ch d) ∧ (c ≠ .ch0 → t.irq = s.irq ∧ t.timer = s.timer)

/-- No bus operation changes a gate level (60_exceptions.md R157). -/
def Obligations.GuestCannotMoveTheGate : Prop :=
  ∀ (i : Instr) (s t : State), i.onBus = true → exec i s = .next t → ∀ c, (t.ch c).gate = (s.ch c).gate

/-- No operation changes the parameters (10_state.md R28), the clock (20_memory.md R50) or the events still to come. That
these are fields beside the state is the model's choice (log entries 3, 2 and 1: DESIGN CHOICE). -/
def Obligations.ParametersAndInputsAreKept : Prop :=
  ∀ (i : Instr) (s t : State), exec i s = .next t →
    t.params = s.params ∧ t.clock = s.clock ∧ t.inbox = s.inbox

/-- Two states with the same persisted image, both as 10_state.md R27 has them, have the same channels and timer, provided
their times fit 64 bits and none of them has the bit pattern of `NONE` (10_state.md R31; the model's choice are the image as
a record, log entry 25, and the deadline in 64 bits with NONE_ENCODING for a cancelled timer, log entry 30); and each is one
that a restore of its own image may give, whatever the line. -/
def Obligations.PersistedImageKeepsEveryField : Prop :=
  (∀ s t : State, s.Restorable → t.Restorable → s.params = t.params → s.persisted = t.persisted →
    (∀ u : State, (u = s ∨ u = t) → ∀ c,
      (-(2 ^ 63) ≤ (u.ch c).countLoadTime ∧ (u.ch c).countLoadTime < 2 ^ 63) ∧
      (∀ h, (u.ch c).nextTransitionTime = some h →
        -(2 ^ 63) ≤ h ∧ h < 2 ^ 63 ∧ BitVec.ofInt 64 h ≠ u.params.noneEncoding)) →
    (∀ c, s.ch c = t.ch c) ∧ s.timer = t.timer) ∧
  ∀ (s : State) (line : Bool), s.Restorable → RestoredV2 s.persisted { s with irq := line }

/-! ### Encoding -/

/-- Every bus operation is encoded, its bytes decode to it (to the generic form of a counter access), and in a state that
selects it the selection gives exactly it (30_encoding.md R60 to R67). -/
def Obligations.DecodeOfEncode : Prop :=
  ∀ i : Instr, i.wellFormed = true → i.onBus = true →
    ∃ bytes, encode i = some bytes ∧ decode bytes = .ok i.asDecoded ∧
      ∀ s, whenHolds s i = true → select s i.asDecoded = i

/-- Decoding is total on transactions (30_encoding.md R61), and encoding what was decoded gives a transaction with the same
meaning: don't-care bits are all that is lost (30_encoding.md R68). That a transaction is two bytes, the second below 8, and
that other bytes are refused, is the model's packing (log entry 8: DESIGN CHOICE). -/
def Obligations.EncodeOfDecode : Prop :=
  (∀ lo hi : Byte, hi.toNat < 8 →
    ∃ i bytes, decode [lo, hi] = .ok i ∧ i.onBus = true ∧ i.asDecoded = i ∧ encode i = some bytes ∧
      decode bytes = .ok i ∧ (i ≠ .rdCtrl → (∀ c, i ≠ .rdCnt c) → (∀ c, i ≠ .cwLatch c) → (∀ r, i ≠ .cwReadback r) →
        bytes = [lo, hi])) ∧
  (∀ lo hi : Byte, 8 ≤ hi.toNat → decode [lo, hi] = .error .aboveTransaction) ∧
  (∀ bytes : List Byte, bytes.length ≠ 2 → decode bytes = .error .length)

/-- The three control bytes the document decodes (30_encoding.md R70) and one word of each other bus format
(30_encoding.md R60, R61). -/
def Obligations.SpecWordsDecode : Prop :=
  decodeTableWord 16 0x734 = some (.cwMode .ch0 .word 2 false) ∧
  decodeTableWord 16 0x700 = some (.cwLatch .ch0) ∧
  decodeTableWord 16 0x7E2 = some (.cwReadback ⟨false, true, true, false, false⟩) ∧
  decodeTableWord 16 0x612 = some (.wrCnt .ch2 0x12) ∧
  decodeTableWord 16 0x100 = some (.rdCnt .ch1) ∧
  decodeTableWord 16 0x300 = some .rdCtrl

/-- The decode tree of a control byte (30_encoding.md R63, fields R64, R65): by ranges, with every field at its bits, the two
latch bits of a read-back active low, and how many of the 256 bytes are read-backs, latches and mode words. That bit 0 of a
read-back is not examined is decision D25 (log entry 22: DESIGN CHOICE). -/
def Obligations.ControlBytesAreSorted : Prop :=
  (∀ v : Byte,
    (0xC0 ≤ v.toNat → decodeControl v = .cwReadback
      { count := decide (v.toNat / 32 % 2 = 0)
        status := decide (v.toNat / 16 % 2 = 0)
        sel0 := decide (v.toNat / 2 % 2 = 1)
        sel1 := decide (v.toNat / 4 % 2 = 1)
        sel2 := decide (v.toNat / 8 % 2 = 1) }) ∧
    (v.toNat < 0xC0 → v.toNat / 16 % 4 = 0 → ∃ c : Chan, c.toBits.toNat = v.toNat / 64 ∧ decodeControl v = .cwLatch c) ∧
    (v.toNat < 0xC0 → v.toNat / 16 % 4 ≠ 0 → ∃ (c : Chan) (a : Access), c.toBits.toNat = v.toNat / 64 ∧
      a.toBits.toNat = v.toNat / 16 % 4 ∧
      decodeControl v = .cwMode c a (BitVec.ofNat 3 (v.toNat / 2)) (decide (v.toNat % 2 = 1)))) ∧
  (∀ ops : List Instr, ops = ((List.range 256).map fun n => decodeControl (BitVec.ofNat 8 n)) →
    ops.countP (fun i => i matches .cwReadback _) = 64 ∧ ops.countP (fun i => i matches .cwLatch _) = 48 ∧
    ops.countP (fun i => i matches .cwMode ..) = 144)

/-! ### Steps -/

/-- A step runs the decoded operation: the access at the head of the list, one byte to one of the four ports, is decoded,
its sub-form is selected by the state, and `exec` runs it with the clock moved on and no value returned yet; a named event
runs as itself; with no event nothing happens (20_memory.md R48, R40; 60_exceptions.md R163). The list of events, the clock
moved by a wait, the cleared result and the idle step are the model's own (log entries 1, 2, 24: DESIGN CHOICE; 28:
DEDUCED). -/
def Obligations.StepRunsTheDecodedOperation : Prop :=
  (∀ s : State, s.inbox = [] → step s = .next s) ∧
  ∀ (s : State) (e : Event) (rest : List Event), s.inbox = e :: rest →
    let s1 := { s with inbox := rest, clock := s.clock + e.wait, result := none }
    (∀ (write : Bool) (off : BitVec 2) (data : Byte) (i : Instr),
      e.request = .port ⟨write, s.params.ioBase + off.toNat, 1, data.toNat⟩ →
      decode (transactionBytes write off data) = .ok i → step s = exec (select s1 i) s1) ∧
    (∀ ev, e.request = .named ev → step s = exec ev.toInstr s1)

/-- An access wider than a byte, or outside the four ports, is refused by name (20_memory.md R42, decision D7: log entry
10). -/
def Obligations.BadPortAccessStops : Prop :=
  ∀ (s : State) (wait : Nat) (a : PortAccess) (rest : List Event),
    s.inbox = ⟨wait, .port a⟩ :: rest → (a.bytes ≠ 1 ∨ a.addr < s.params.ioBase ∨ s.params.ioBase + 4 ≤ a.addr) →
    step s = .refused .badPortAccess

/-- The invariant of 10_state.md R27 holds after construction, with every setting of the parameters and any events to
come. -/
def Obligations.InvariantAfterConstruction : Prop :=
  ∀ (p : Params) (events : List Event), State.Inv { State.constructed p with inbox := events }

/-- Every step keeps the invariant (10_state.md R27, 42_counter_port.md R126): counts in 1..65536, load times between T_INIT
and the clock, both sequencers in step with `rw_mode`, status bit 6 clear, no count latch pending on an unprogrammed channel,
an armed timer equal to channel 0's next transition time. Every step also keeps 10_state.md R27 alone, from every state a
restore may give: `rw_mode` and both sequencers are there only 0 together or none of them 0. -/
def Obligations.StepKeepsTheInvariant : Prop :=
  ∀ s t : State, step s = .next t → (s.Inv → t.Inv) ∧ (s.Restorable → t.Restorable)

/-- The invariant holds along every run of any list of events from construction, and 10_state.md R27 along every run from a
state that a restore of either version may give, a pass run after the load or not (log entries 25 and 29). -/
def Obligations.InvariantAlongEveryRun : Prop :=
  (∀ (p : Params) (events : List Event) (k : Nat) (t : State),
    Host.Core.run Sys2Proof.core k { State.constructed p with inbox := events } = .next t → t.Inv ∧ t.Restorable) ∧
  (∀ (v2 : Persisted) (v1 : PersistedV1) (s t : State) (events : List Event) (k : Nat),
    (RestoredV2 v2 s ∨ RestoredV1 v1 s) → Host.Core.run Sys2Proof.core k { s with inbox := events } = .next t →
    t.Restorable)

/-- Progress: in a state that meets the invariant an operation runs to a next state exactly when it is well formed, selected
by the state, not the read of the control port (log entry 9) and, for `EXPIRE`, armed and due, and the settings give it a
meaning: MODE67 is not refuse or the channels it consults are in modes 0 to 5, and UNPROG is not refuse or the access is not
one of an unprogrammed channel (60_exceptions.md R150). It speaks of every setting, the spec's default refuse and that of
`State.reset` (log entries 4 and 5) alike. -/
def Obligations.EveryOperationRuns : Prop :=
  ∀ (s : State) (i : Instr), s.Inv → ((∃ t, exec i s = .next t) ↔ mayRun s i ∧ permitted s i)

/-- A bus access of one byte to one of the four ports, other than a read of the control port (log entry 9), is decoded to an
operation of the bus and steps from a state that meets the invariant wherever the settings give the selected operation a
meaning (60_exceptions.md R150: no bus access fails); with every channel programmed and in modes 0 to 5 that is so under
every setting, the spec's default refuse included (log entries 4 and 5). -/
def Obligations.EveryBusAccessSteps : Prop :=
  ∀ (s : State) (wait : Nat) (write : Bool) (off : Nat) (data : Nat) (rest : List Event), s.Inv →
    off < 4 → (write = false → off ≠ 3) →
    (∃ i, decode (transactionBytes write (BitVec.ofNat 2 off) (BitVec.ofNat 8 data)) = .ok i ∧ i.onBus = true ∧
      (permitted s (select s i) →
        ∃ t, step { s with inbox := ⟨wait, .port ⟨write, s.params.ioBase + off, 1, data⟩⟩ :: rest } = .next t)) ∧
    ((∀ c, OpMode.ofField (s.ch c).mode ≠ none ∧ (s.ch c).rwMode ≠ 0) →
      ∃ t, step { s with inbox := ⟨wait, .port ⟨write, s.params.ioBase + off, 1, data⟩⟩ :: rest } = .next t)

/-! ### Modes 6 and 7 under refuse -/

/-- Under MODE67 = refuse every operation that makes a time-model query on a channel in mode 6 or 7 is refused
(40_time_model.md R99, 93_implementation_defined.md U1; `GATE` is in `GateRunsOrStops`): a latch with nothing pending, a
read-back that takes its count or its status, a live read, `GET.OUT`, a Load on channel 0 and `EXPIRE`. Storing, reporting
by `GET.MODE` and replacing the mode run. -/
def Obligations.Mode67OperationsAreRefused : Prop :=
  ∀ (s : State) (c : Chan), s.params.mode67 = .refuse → ((s.ch c).mode = 6 ∨ (s.ch c).mode = 7) →
    ((s.ch c).countLoadTime ≤ s.clock →
      ((s.ch c).countLatched = 0 → exec (.cwLatch c) s = .refused .mode67) ∧
      (∀ r : ReadBack, r.selects c = true → (∀ d, r.selects d = true → (s.ch d).countLoadTime ≤ s.clock) →
        ((r.count = true ∧ (s.ch c).countLatched = 0) ∨ (r.status = true ∧ (s.ch c).statusLatched = false)) →
        exec (.cwReadback r) s = .refused .mode67) ∧
      (liveView (s.ch c) = true → ((s.ch c).readState = .unprogrammed → s.params.unprog = .asLsb) →
        exec (select s (.rdCnt c)) s = .refused .mode67) ∧
      exec (.getOut c) s = .refused .mode67) ∧
    (c = .ch0 → ∀ val : Byte,
      s.ch0.writeState ≠ .word0 → (s.ch0.writeState = .unprogrammed → s.params.unprog = .asLsb) →
      exec (select s (.wrCnt c val)) s = .refused .mode67) ∧
    (c = .ch0 → ∀ deadline t : Int, s.timer = some deadline → deadline ≤ s.clock →
      s.ch0.nextTransitionTime = some t → s.ch0.countLoadTime ≤ t → exec .expire s = .refused .mode67) ∧
    exec (.getMode c) s = .next { s with result := some (.mode (s.ch c).mode) } ∧
    (∀ (a : Access) (m : BitVec 3) (bcd : Bool), ∃ t, exec (.cwMode c a m bcd) s = .next t ∧ (t.ch c).mode = m) ∧
    (∃ t, exec .reset s = .next t) ∧ ∃ t, exec .hpetEnable s = .next t
end

