-- ==== Sys2Proof/Laws/State.lean ====
section
/-! SUPPORT. One lemma per field per update of the state. -/

namespace Sys2Proof.Machine

@[simp] theorem State.ch_ch0 (s : State) : s.ch .ch0 = s.ch0 := rfl
@[simp] theorem State.ch_ch1 (s : State) : s.ch .ch1 = s.ch1 := rfl
@[simp] theorem State.ch_ch2 (s : State) : s.ch .ch2 = s.ch2 := rfl

@[simp] theorem State.setCh_ch_self (s : State) (c : Chan) (x : Channel) : (s.setCh c x).ch c = x := by
  cases c <;> rfl
theorem State.setCh_ch_ne (s : State) {c d : Chan} (h : d ≠ c) (x : Channel) : (s.setCh c x).ch d = s.ch d := by
  cases c <;> cases d <;> first | rfl | exact absurd rfl h
@[simp] theorem State.setCh_irq (s : State) (c : Chan) (x : Channel) : (s.setCh c x).irq = s.irq := by cases c <;> rfl
@[simp] theorem State.setCh_timer (s : State) (c : Chan) (x : Channel) : (s.setCh c x).timer = s.timer := by
  cases c <;> rfl
@[simp] theorem State.setCh_result (s : State) (c : Chan) (x : Channel) : (s.setCh c x).result = s.result := by
  cases c <;> rfl
@[simp] theorem State.setCh_params (s : State) (c : Chan) (x : Channel) : (s.setCh c x).params = s.params := by
  cases c <;> rfl
@[simp] theorem State.setCh_clock (s : State) (c : Chan) (x : Channel) : (s.setCh c x).clock = s.clock := by
  cases c <;> rfl
@[simp] theorem State.setCh_inbox (s : State) (c : Chan) (x : Channel) : (s.setCh c x).inbox = s.inbox := by
  cases c <;> rfl
@[simp] theorem State.setCh_ch (s : State) (c : Chan) : s.setCh c (s.ch c) = s := by cases c <;> rfl
@[simp] theorem State.setCh_setCh (s : State) (c : Chan) (x y : Channel) : (s.setCh c x).setCh c y = s.setCh c y := by
  cases c <;> rfl
@[simp] theorem State.setCh_ch0_ch0 (s : State) (x : Channel) : (s.setCh .ch0 x).ch0 = x := rfl
@[simp] theorem State.setCh_ch0_ch1 (s : State) (x : Channel) : (s.setCh .ch0 x).ch1 = s.ch1 := rfl
@[simp] theorem State.setCh_ch0_ch2 (s : State) (x : Channel) : (s.setCh .ch0 x).ch2 = s.ch2 := rfl
@[simp] theorem State.setCh_ch1_ch0 (s : State) (x : Channel) : (s.setCh .ch1 x).ch0 = s.ch0 := rfl
@[simp] theorem State.setCh_ch1_ch1 (s : State) (x : Channel) : (s.setCh .ch1 x).ch1 = x := rfl
@[simp] theorem State.setCh_ch1_ch2 (s : State) (x : Channel) : (s.setCh .ch1 x).ch2 = s.ch2 := rfl
@[simp] theorem State.setCh_ch2_ch0 (s : State) (x : Channel) : (s.setCh .ch2 x).ch0 = s.ch0 := rfl
@[simp] theorem State.setCh_ch2_ch1 (s : State) (x : Channel) : (s.setCh .ch2 x).ch1 = s.ch1 := rfl
@[simp] theorem State.setCh_ch2_ch2 (s : State) (x : Channel) : (s.setCh .ch2 x).ch2 = x := rfl
theorem State.setCh_ch0 (s : State) (x : Channel) : s.setCh .ch0 x = { s with ch0 := x } := rfl
theorem State.setCh_ch1 (s : State) (x : Channel) : s.setCh .ch1 x = { s with ch1 := x } := rfl
theorem State.setCh_ch2 (s : State) (x : Channel) : s.setCh .ch2 x = { s with ch2 := x } := rfl

@[simp] theorem State.returning_ch (s : State) (r : Result) (c : Chan) : (s.returning r).ch c = s.ch c := by
  cases c <;> rfl
@[simp] theorem State.returning_ch0 (s : State) (r : Result) : (s.returning r).ch0 = s.ch0 := rfl
@[simp] theorem State.returning_irq (s : State) (r : Result) : (s.returning r).irq = s.irq := rfl
@[simp] theorem State.returning_timer (s : State) (r : Result) : (s.returning r).timer = s.timer := rfl
@[simp] theorem State.returning_result (s : State) (r : Result) : (s.returning r).result = some r := rfl
@[simp] theorem State.returning_params (s : State) (r : Result) : (s.returning r).params = s.params := rfl
@[simp] theorem State.returning_clock (s : State) (r : Result) : (s.returning r).clock = s.clock := rfl
@[simp] theorem State.returning_inbox (s : State) (r : Result) : (s.returning r).inbox = s.inbox := rfl

@[simp] theorem arrive_ch (s : State) (e : Event) (rest : List Event) (c : Chan) : (arrive s e rest).ch c = s.ch c := by
  cases c <;> rfl
@[simp] theorem arrive_ch0 (s : State) (e : Event) (rest : List Event) : (arrive s e rest).ch0 = s.ch0 := rfl
@[simp] theorem arrive_ch1 (s : State) (e : Event) (rest : List Event) : (arrive s e rest).ch1 = s.ch1 := rfl
@[simp] theorem arrive_ch2 (s : State) (e : Event) (rest : List Event) : (arrive s e rest).ch2 = s.ch2 := rfl
@[simp] theorem arrive_irq (s : State) (e : Event) (rest : List Event) : (arrive s e rest).irq = s.irq := rfl
@[simp] theorem arrive_timer (s : State) (e : Event) (rest : List Event) : (arrive s e rest).timer = s.timer := rfl
@[simp] theorem arrive_result (s : State) (e : Event) (rest : List Event) : (arrive s e rest).result = none := rfl
@[simp] theorem arrive_params (s : State) (e : Event) (rest : List Event) : (arrive s e rest).params = s.params := rfl
@[simp] theorem arrive_clock (s : State) (e : Event) (rest : List Event) :
    (arrive s e rest).clock = s.clock + e.wait := rfl
@[simp] theorem arrive_inbox (s : State) (e : Event) (rest : List Event) : (arrive s e rest).inbox = rest := rfl

@[simp] theorem storeGate_irq (c : Chan) (b : Bool) (s : State) : (storeGate c b s).irq = s.irq := by simp [storeGate]
@[simp] theorem storeGate_timer (c : Chan) (b : Bool) (s : State) : (storeGate c b s).timer = s.timer := by
  simp [storeGate]
@[simp] theorem storeGate_result (c : Chan) (b : Bool) (s : State) : (storeGate c b s).result = s.result := by
  simp [storeGate]
@[simp] theorem storeGate_params (c : Chan) (b : Bool) (s : State) : (storeGate c b s).params = s.params := by
  simp [storeGate]
@[simp] theorem storeGate_clock (c : Chan) (b : Bool) (s : State) : (storeGate c b s).clock = s.clock := by
  simp [storeGate]
@[simp] theorem storeGate_inbox (c : Chan) (b : Bool) (s : State) : (storeGate c b s).inbox = s.inbox := by
  simp [storeGate]

@[simp] theorem answer_eq_next {k : Except Refusal State} {t : State} : answer k = .next t ↔ k = .ok t := by
  cases k <;> simp [answer]
@[simp] theorem answer_eq_refused {k : Except Refusal State} {r : Refusal} : answer k = .refused r ↔ k = .error r := by
  cases k <;> simp [answer]
theorem answerWhen_true (k : Except Refusal State) : answerWhen true k = answer k := rfl
theorem answerWhen_false (k : Except Refusal State) : answerWhen false k = .refused .notSelected := rfl
@[simp] theorem answerWhen_eq_next {b : Bool} {k : Except Refusal State} {t : State} :
    answerWhen b k = .next t ↔ b = true ∧ k = .ok t := by
  cases b <;> simp [answerWhen]

/-- A sequencer belongs to the access 0, no access programmed, exactly when it is 0 itself. -/
@[simp] theorem Sequencer.access_eq_zero {q : Sequencer} : q.access = 0#2 ↔ q = .unprogrammed := by
  cases q <;> decide

/-- What a `CW.MODE` programs is never the value 0. -/
@[simp] theorem Sequencer.ofAccess_ne_unprogrammed (a : Access) : Sequencer.ofAccess a ≠ .unprogrammed := by
  cases a <;> decide
@[simp] theorem Access.toBits_ne_zero (a : Access) : a.toBits ≠ 0#2 := by
  cases a <;> decide

/-- The invariant of a constructed machine includes what a restored state must satisfy. -/
theorem State.Inv.restorable {s : State} (h : s.Inv) : s.Restorable where
  ch0 := h.ch0.toRestorable
  ch1 := h.ch1.toRestorable
  ch2 := h.ch2.toRestorable
  timer_next := by
    cases ht : s.timer with
    | none => exact .inl rfl
    | some deadline => exact .inr (h.timer_next deadline ht).1.symm

end Sys2Proof.Machine
end

