-- ==== Sys2Proof/Laws/TimeModel.lean ====
section
/-! SUPPORT. What the time model can answer, said once. -/

namespace Sys2Proof.Machine

theorem elapsed_of_le {x : Channel} {t : Int} (h : x.countLoadTime ≤ t) :
    elapsed x t = .ok (timeToTicks (t - x.countLoadTime).toNat) := by
  simp [elapsed, Int.not_lt.mpr h]

theorem elapsed_ok {x : Channel} {t : Int} {d : Nat} (h : elapsed x t = .ok d) :
    x.countLoadTime ≤ t ∧ d = timeToTicks (t - x.countLoadTime).toNat := by
  unfold elapsed at h
  split at h
  · cases h
  · exact ⟨Int.not_lt.mp ‹_›, by simpa using h.symm⟩

theorem elapsed_at_load {x : Channel} : elapsed x x.countLoadTime = .ok 0 := by
  simp [elapsed, timeToTicks, muldiv]

theorem modeLaw_row {m : BitVec 3} {r : OpMode} (h : OpMode.ofField m = some r) (setting : Mode67) (arm : OpMode) :
    modeLaw setting arm m = .row r := by
  simp [modeLaw, h]

theorem modeLaw_ne_refuse {p : Params} {x : Channel} (h : Answers p x) (arm : OpMode) :
    modeLaw p.mode67 arm x.mode ≠ .refuse := by
  unfold modeLaw
  cases hm : OpMode.ofField x.mode with
  | some r => simp
  | none =>
    have hs : p.mode67 ≠ .refuse := h.resolve_left (not_not_intro hm)
    cases hp : p.mode67 <;> simp_all

/-- A query answers after the load exactly when its mode is not refused. -/
theorem timeQuery_answers {α : Type} {p : Params} {x : Channel} {t : Int} (arm : OpMode) (row : OpMode → Nat → α)
    (free : α) (h : Answers p x) (ht : x.countLoadTime ≤ t) : ∃ a, timeQuery p arm row free x t = .ok a := by
  unfold timeQuery
  rw [elapsed_of_le ht]
  cases hl : modeLaw p.mode67 arm x.mode with
  | row m => exact ⟨_, rfl⟩
  | free => exact ⟨_, rfl⟩
  | refuse => exact absurd hl (modeLaw_ne_refuse h arm)

/-- The answer of a query in an operating mode is its table row at the elapsed ticks. -/
theorem timeQuery_row {α : Type} {p : Params} {x : Channel} {t : Int} {m : OpMode} (arm : OpMode)
    (row : OpMode → Nat → α) (free : α) (h : OpMode.ofField x.mode = some m) (ht : x.countLoadTime ≤ t) :
    timeQuery p arm row free x t = .ok (row m (timeToTicks (t - x.countLoadTime).toNat)) := by
  simp [timeQuery, elapsed_of_le ht, modeLaw_row h]

/-- A query that answers is made at or after the load. -/
theorem timeQuery_ok {α : Type} {p : Params} {x : Channel} {t : Int} {arm : OpMode} {row : OpMode → Nat → α} {free a : α}
    (h : timeQuery p arm row free x t = .ok a) : x.countLoadTime ≤ t := by
  unfold timeQuery at h
  split at h
  · cases h
  · exact (elapsed_ok ‹_›).1

theorem getCount_answers {p : Params} {x : Channel} {t : Int} (h : Answers p x) (ht : x.countLoadTime ≤ t) :
    ∃ n, getCount p x t = .ok n := timeQuery_answers _ _ _ h ht

theorem getOut_answers {p : Params} {x : Channel} {t : Int} (h : Answers p x) (ht : x.countLoadTime ≤ t) :
    ∃ b, getOut p x t = .ok b := timeQuery_answers _ _ _ h ht

theorem nextTransition_answers {p : Params} {x : Channel} {t : Int} (h : Answers p x) (ht : x.countLoadTime ≤ t) :
    ∃ e, nextTransition p x t = .ok e := by
  obtain ⟨n, hn⟩ := timeQuery_answers (p := p) (x := x) (t := t) .mode0 (fun m d => nextTicksAt m x.count d)
    (Config.mode67NextTicks x.mode x.count x.countLoadTime t) h ht
  exact ⟨n.map (tickTime x t), by simp [nextTransition, nextTicks, hn, Except.map]⟩

theorem getCount_row {p : Params} {x : Channel} {t : Int} {m : OpMode} (h : OpMode.ofField x.mode = some m)
    (ht : x.countLoadTime ≤ t) :
    getCount p x t = .ok (countAt m x.count (timeToTicks (t - x.countLoadTime).toNat)) := timeQuery_row _ _ _ h ht

theorem getOut_row {p : Params} {x : Channel} {t : Int} {m : OpMode} (h : OpMode.ofField x.mode = some m)
    (ht : x.countLoadTime ≤ t) :
    getOut p x t = .ok (outAt m x.count (timeToTicks (t - x.countLoadTime).toNat)) := timeQuery_row _ _ _ h ht

theorem nextTransition_row {p : Params} {x : Channel} {t : Int} {m : OpMode} (h : OpMode.ofField x.mode = some m)
    (ht : x.countLoadTime ≤ t) :
    nextTransition p x t =
      .ok ((nextTicksAt m x.count (timeToTicks (t - x.countLoadTime).toNat)).map (tickTime x t)) := by
  simp [nextTransition, nextTicks, timeQuery_row _ _ _ h ht, Except.map]

/-- The fix-up makes every predicted time strictly future. -/
theorem lt_tickTime (x : Channel) (t : Int) (n : Nat) : t < tickTime x t n := by
  unfold tickTime
  dsimp only
  split <;> omega

theorem nextTransition_future {p : Params} {x : Channel} {t h : Int} (he : nextTransition p x t = .ok (some h)) :
    t < h := by
  unfold nextTransition at he
  cases hn : nextTicks p x t with
  | error r => simp [hn, Except.map] at he
  | ok n =>
    cases n with
    | none => simp [hn, Except.map] at he
    | some n =>
      have : tickTime x t n = h := by simpa [hn, Except.map] using he
      exact this ▸ lt_tickTime x t n

theorem nextTransition_ok {p : Params} {x : Channel} {t : Int} {e : Option Int} (he : nextTransition p x t = .ok e) :
    x.countLoadTime ≤ t := by
  unfold nextTransition at he
  cases hn : nextTicks p x t with
  | error r => simp [hn, Except.map] at he
  | ok n => exact timeQuery_ok hn

/-- A query reads count, load time and mode of the channel and nothing else (40_time_model.md R82). -/
theorem timeQuery_congr {α : Type} {p : Params} {x y : Channel} {t : Int} (arm : OpMode) (row : OpMode → Nat → α)
    (free : α) (hl : x.countLoadTime = y.countLoadTime) (hm : x.mode = y.mode) :
    timeQuery p arm row free x t = timeQuery p arm row free y t := by
  simp [timeQuery, elapsed, hl, hm]

theorem getCount_congr {p : Params} {x y : Channel} {t : Int} (hc : x.count = y.count)
    (hl : x.countLoadTime = y.countLoadTime) (hm : x.mode = y.mode) : getCount p x t = getCount p y t := by
  simp only [getCount, hc, hl, hm]
  exact timeQuery_congr _ _ _ hl hm

theorem getOut_congr {p : Params} {x y : Channel} {t : Int} (hc : x.count = y.count)
    (hl : x.countLoadTime = y.countLoadTime) (hm : x.mode = y.mode) : getOut p x t = getOut p y t := by
  simp only [getOut, hc, hl, hm]
  exact timeQuery_congr _ _ _ hl hm

theorem nextTransition_congr {p : Params} {x y : Channel} {t : Int} (hc : x.count = y.count)
    (hl : x.countLoadTime = y.countLoadTime) (hm : x.mode = y.mode) : nextTransition p x t = nextTransition p y t := by
  have hn : nextTicks p x t = nextTicks p y t := by
    simp only [nextTicks, hc, hl, hm]
    exact timeQuery_congr _ _ _ hl hm
  have ht : tickTime x t = tickTime y t := by
    funext n
    simp [tickTime, hl]
  simp [nextTransition, hn, ht]

/-- Mode 3 after a reset or an HPET enable: OUT is 1 and the first edge is 32768 ticks away (10_state.md R32). -/
theorem mode3_getOut {p : Params} {x : Channel} (hm : x.mode = 3) (hc : x.count = 65536) :
    getOut p x x.countLoadTime = .ok true := by
  have h : OpMode.ofField x.mode = some .mode3 := by rw [hm]; rfl
  simp [getOut_row h (le_refl _), hc, outAt, timeToTicks, muldiv]

theorem mode3_nextTransition {p : Params} {x : Channel} (hm : x.mode = 3) (hc : x.count = 65536) :
    nextTransition p x x.countLoadTime = .ok (some (x.countLoadTime + 27462700)) := by
  have h : OpMode.ofField x.mode = some .mode3 := by rw [hm]; rfl
  rw [nextTransition_row h (le_refl _), hc]
  simp [nextTicksAt, timeToTicks, ticksToTime, muldiv, tickTime, Config.ticksPerSec, Config.pitFreq]

end Sys2Proof.Machine
end

