-- ==== Sys2Proof/Laws/Ops.lean ====
section
/-! SUPPORT. Everything a shared operation can do, one lemma each. -/

namespace Sys2Proof.Machine

/-- What a scheduler pass does when it answers. -/
theorem schedulerPass_ok {s u : State} {t : Int} (h : schedulerPass s t = .ok u) :
    ∃ e b, nextTransition s.params s.ch0 t = .ok e ∧ getOut s.params s.ch0 t = .ok b ∧
      u = { s with irq := b, ch0 := { s.ch0 with nextTransitionTime := e }, timer := e } := by
  unfold schedulerPass at h
  split at h
  · cases h
  · cases h
  · exact ⟨_, _, ‹_›, ‹_›, by simpa using h.symm⟩

theorem schedulerPass_of {s : State} {t : Int} {e : Option Int} {b : Bool}
    (he : nextTransition s.params s.ch0 t = .ok e) (hb : getOut s.params s.ch0 t = .ok b) :
    schedulerPass s t =
      .ok { s with irq := b, ch0 := { s.ch0 with nextTransitionTime := e }, timer := e } := by
  simp [schedulerPass, he, hb]

theorem schedulerPass_answers {s : State} {t : Int} (h : Answers s.params s.ch0) (ht : s.ch0.countLoadTime ≤ t) :
    ∃ u, schedulerPass s t = .ok u := by
  obtain ⟨e, he⟩ := nextTransition_answers h ht
  obtain ⟨b, hb⟩ := getOut_answers h ht
  exact ⟨_, schedulerPass_of he hb⟩

theorem reschedule_ch0 (s : State) (t : Int) : reschedule .ch0 s t = schedulerPass s t := rfl

theorem reschedule_ne {c : Chan} (h : c ≠ .ch0) (s : State) (t : Int) : reschedule c s t = .ok s := by
  cases c <;> first | rfl | exact absurd rfl h

/-- What rescheduling does when it answers: nothing for channels 1 and 2, a pass for channel 0. -/
theorem reschedule_ok {c : Chan} {s u : State} {t : Int} (h : reschedule c s t = .ok u) :
    (c ≠ .ch0 ∧ u = s) ∨
    (c = .ch0 ∧ ∃ e b, nextTransition s.params s.ch0 t = .ok e ∧ getOut s.params s.ch0 t = .ok b ∧
      u = { s with irq := b, ch0 := { s.ch0 with nextTransitionTime := e }, timer := e }) := by
  by_cases hc : c = .ch0
  · subst hc
    exact .inr ⟨rfl, schedulerPass_ok h⟩
  · rw [reschedule_ne hc] at h
    exact .inl ⟨hc, by simpa using h.symm⟩

theorem reschedule_answers {c : Chan} {s : State} {t : Int} (h : Answers s.params s.ch0)
    (ht : s.ch0.countLoadTime ≤ t) : ∃ u, reschedule c s t = .ok u := by
  cases c
  · exact schedulerPass_answers h ht
  · exact ⟨s, rfl⟩
  · exact ⟨s, rfl⟩

/-- What a Load does when it answers. -/
theorem load_ok {c : Chan} {v : Nat} {s u : State} (h : load c v s = .ok u) :
    (c ≠ .ch0 ∧ u = s.setCh c { s.ch c with count := countOfValue v, countLoadTime := s.clock }) ∨
    (c = .ch0 ∧ ∃ e b,
      nextTransition s.params { s.ch0 with count := countOfValue v, countLoadTime := s.clock } s.clock = .ok e ∧
      getOut s.params { s.ch0 with count := countOfValue v, countLoadTime := s.clock } s.clock = .ok b ∧
      u = { s with
        irq := b
        ch0 := { s.ch0 with count := countOfValue v, countLoadTime := s.clock, nextTransitionTime := e }
        timer := e }) := by
  unfold load at h
  rcases reschedule_ok h with ⟨hc, hu⟩ | ⟨hc, e, b, he, hb, hu⟩
  · exact .inl ⟨hc, hu⟩
  · subst hc
    exact .inr ⟨rfl, e, b, he, hb, hu⟩

theorem load_ne {c : Chan} (hc : c ≠ .ch0) (v : Nat) (s : State) :
    load c v s = .ok (s.setCh c { s.ch c with count := countOfValue v, countLoadTime := s.clock }) := by
  simp [load, reschedule_ne hc]

theorem load_ch0_of {v : Nat} {s : State} {e : Option Int} {b : Bool}
    (he : nextTransition s.params { s.ch0 with count := countOfValue v, countLoadTime := s.clock } s.clock = .ok e)
    (hb : getOut s.params { s.ch0 with count := countOfValue v, countLoadTime := s.clock } s.clock = .ok b) :
    load .ch0 v s =
      .ok { s with
        irq := b
        ch0 := { s.ch0 with count := countOfValue v, countLoadTime := s.clock, nextTransitionTime := e }
        timer := e } := by
  unfold load
  rw [reschedule_ch0, schedulerPass_of (e := e) (b := b)]
  · rfl
  · exact he
  · exact hb

theorem load_answers {c : Chan} {v : Nat} {s : State} (h : c = .ch0 → Answers s.params s.ch0) :
    ∃ u, load c v s = .ok u := by
  by_cases hc : c = .ch0
  · subst hc
    exact schedulerPass_answers (s := s.setCh .ch0 _) (h rfl) (le_refl _)
  · exact ⟨_, load_ne hc v s⟩

/-- A pending latch is kept (41_control_word.md R100). -/
theorem latchCount_pending {x : Channel} (h : x.countLatched ≠ 0) (p : Params) (now : Int) :
    latchCount p x now = .ok x := by
  rw [latchCount, if_neg h]

/-- With nothing pending the snapshot is taken (41_control_word.md R100). -/
theorem latchCount_of {p : Params} {x : Channel} {now : Int} {n : Nat} (h : x.countLatched = 0)
    (hn : getCount p x now = .ok n) :
    latchCount p x now = .ok { x with latchedCount := snapshot n, countLatched := x.rwMode } := by
  rw [latchCount, if_pos h, hn]
  rfl

/-- What `Latch` does when it answers. -/
theorem latchCount_ok {p : Params} {x y : Channel} {now : Int} (h : latchCount p x now = .ok y) :
    (x.countLatched ≠ 0 ∧ y = x) ∨
    (x.countLatched = 0 ∧ ∃ n, getCount p x now = .ok n ∧
      y = { x with latchedCount := snapshot n, countLatched := x.rwMode }) := by
  unfold latchCount at h
  split at h
  · cases hn : getCount p x now with
    | error r => simp [hn, Except.map] at h
    | ok n => exact .inr ⟨‹_›, n, rfl, by simpa [hn, Except.map] using h.symm⟩
  · exact .inl ⟨‹_›, by simpa using h.symm⟩

theorem latchCount_answers {p : Params} {x : Channel} {now : Int} (h : Answers p x) (ht : x.countLoadTime ≤ now) :
    ∃ y, latchCount p x now = .ok y := by
  unfold latchCount
  obtain ⟨n, hn⟩ := getCount_answers h ht
  split
  · exact ⟨_, by simp [hn, Except.map]; rfl⟩
  · exact ⟨_, rfl⟩

/-- A pending status is kept (41_control_word.md R103). -/
theorem latchStatus_pending {x : Channel} (h : x.statusLatched = true) (p : Params) (now : Int) :
    latchStatus p x now = .ok x := by
  simp [latchStatus, h]

/-- With no status pending the status byte is stored (41_control_word.md R103). -/
theorem latchStatus_of {p : Params} {x : Channel} {now : Int} {b : Bool} (h : x.statusLatched = false)
    (hb : getOut p x now = .ok b) :
    latchStatus p x now =
      .ok { x with status := statusByte b x.rwMode x.mode x.bcd, statusLatched := true } := by
  simp [latchStatus, h, hb, Except.map]

/-- What the status part of a read-back does when it answers. -/
theorem latchStatus_ok {p : Params} {x y : Channel} {now : Int} (h : latchStatus p x now = .ok y) :
    (x.statusLatched = true ∧ y = x) ∨
    (x.statusLatched = false ∧ ∃ b, getOut p x now = .ok b ∧
      y = { x with status := statusByte b x.rwMode x.mode x.bcd, statusLatched := true }) := by
  unfold latchStatus at h
  split at h
  · exact .inl ⟨‹_›, by simpa using h.symm⟩
  · cases hb : getOut p x now with
    | error r => simp [hb, Except.map] at h
    | ok b => exact .inr ⟨by simpa using ‹¬ x.statusLatched = true›, b, rfl, by simpa [hb, Except.map] using h.symm⟩

theorem latchStatus_answers {p : Params} {x : Channel} {now : Int} (h : Answers p x) (ht : x.countLoadTime ≤ now) :
    ∃ y, latchStatus p x now = .ok y := by
  unfold latchStatus
  obtain ⟨b, hb⟩ := getOut_answers h ht
  split
  · exact ⟨_, rfl⟩
  · exact ⟨_, by simp [hb, Except.map]; rfl⟩

/-- A channel update that answers writes the new channel and nothing else. -/
theorem updateChannel_ok {c : Chan} {f : Channel → Except Refusal Channel} {s u : State}
    (h : updateChannel c f s = .ok u) : ∃ y, f (s.ch c) = .ok y ∧ u = s.setCh c y := by
  unfold updateChannel at h
  cases hy : f (s.ch c) with
  | error r => simp [hy, Except.map] at h
  | ok y => exact ⟨y, rfl, by simpa [hy, Except.map] using h.symm⟩

theorem updateChannel_of {c : Chan} {f : Channel → Except Refusal Channel} {s : State} {y : Channel}
    (h : f (s.ch c) = .ok y) : updateChannel c f s = .ok (s.setCh c y) := by
  simp [updateChannel, h, Except.map]

/-- A bind that answers went through a first answer. -/
theorem bind_ok {α β : Type} {k : Except Refusal α} {f : α → Except Refusal β} {b : β} (h : k.bind f = .ok b) :
    ∃ a, k = .ok a ∧ f a = .ok b := by
  cases k with
  | error r => simp [Except.bind] at h
  | ok a => exact ⟨a, rfl, h⟩

theorem map_ok {α β : Type} {k : Except Refusal α} {f : α → β} {b : β} (h : k.map f = .ok b) :
    ∃ a, k = .ok a ∧ f a = b := by
  cases k with
  | error r => simp [Except.map] at h
  | ok a => exact ⟨a, rfl, by simpa [Except.map] using h⟩

/-- What a read-back leaves of a channel, whatever it latches: only the latches and the status change. -/
theorem readBackChannel_frame {p : Params} {r : ReadBack} {sel : Bool} {x y : Channel} {now : Int}
    (h : readBackChannel p r sel x now = .ok y) :
    ∃ l k st b, y = { x with latchedCount := l, countLatched := k, status := st, statusLatched := b } ∧
      (st = x.status ∨ ∃ o, st = statusByte o x.rwMode x.mode x.bcd) := by
  unfold readBackChannel at h
  cases sel
  · exact ⟨x.latchedCount, x.countLatched, x.status, x.statusLatched, by simpa using h.symm, .inl rfl⟩
  · simp only [if_true] at h
    obtain ⟨z, hz, hy⟩ := bind_ok h
    have hzx : ∃ l k, z = { x with latchedCount := l, countLatched := k } := by
      cases hr : r.count
      · exact ⟨x.latchedCount, x.countLatched, by simpa [hr] using hz.symm⟩
      · rcases latchCount_ok (by simpa [hr] using hz) with ⟨-, hzz⟩ | ⟨-, n, -, hzz⟩
        · exact ⟨x.latchedCount, x.countLatched, hzz⟩
        · exact ⟨_, _, hzz⟩
    obtain ⟨l, k, rfl⟩ := hzx
    cases hr : r.status
    · exact ⟨l, k, x.status, x.statusLatched, by simpa [hr] using hy.symm, .inl rfl⟩
    · rcases latchStatus_ok (by simpa [hr] using hy) with ⟨-, hyy⟩ | ⟨-, b, -, hyy⟩
      · exact ⟨l, k, x.status, x.statusLatched, hyy, .inl rfl⟩
      · exact ⟨l, k, _, true, hyy, .inr ⟨b, rfl⟩⟩

theorem readBackChannel_answers {p : Params} {r : ReadBack} {sel : Bool} {x : Channel} {now : Int}
    (h : sel = true → Answers p x ∧ x.countLoadTime ≤ now) : ∃ y, readBackChannel p r sel x now = .ok y := by
  unfold readBackChannel
  cases sel
  · exact ⟨x, rfl⟩
  · obtain ⟨ha, ht⟩ := h rfl
    have hcount : ∃ z, (if r.count then latchCount p x now else .ok x) = .ok z ∧ Answers p z ∧ z.countLoadTime ≤ now := by
      cases r.count
      · exact ⟨x, rfl, ha, ht⟩
      · obtain ⟨z, hz⟩ := latchCount_answers ha ht
        refine ⟨z, hz, ?_⟩
        rcases latchCount_ok hz with ⟨-, rfl⟩ | ⟨-, n, -, rfl⟩ <;> exact ⟨ha, ht⟩
    obtain ⟨z, hz, hza, hzt⟩ := hcount
    simp only [if_true, hz, Except.bind]
    cases r.status
    · exact ⟨z, rfl⟩
    · exact latchStatus_answers hza hzt

/-- Whether a gate event reloads, when it is not refused: never in modes 0 and 4, and in the table's other modes exactly
on a rising edge. -/
theorem gateReloads_row {p : Params} {x : Channel} {m : OpMode} (hm : OpMode.ofField x.mode = some m) (new : Bool) :
    gateReloads p x new = .ok (decide (m ≠ .mode0 ∧ m ≠ .mode4) && risingEdge x.gate new) := by
  simp only [gateReloads, modeLaw_row hm]
  cases m <;> simp

theorem gateReloads_answers {p : Params} {x : Channel} (h : Answers p x) (new : Bool) :
    ∃ b, gateReloads p x new = .ok b := by
  unfold gateReloads
  have := modeLaw_ne_refuse h .mode0
  cases hl : modeLaw p.mode67 .mode0 x.mode with
  | row m => cases m <;> exact ⟨_, rfl⟩
  | free => exact ⟨_, rfl⟩
  | refuse => exact absurd hl this

/-- What a reload by the gate does when it answers. -/
theorem gateReload_ok {c : Chan} {s u : State} (h : gateReload c s = .ok u) :
    (c ≠ .ch0 ∧ u = s.setCh c { s.ch c with countLoadTime := s.clock }) ∨
    (c = .ch0 ∧ ∃ e b,
      nextTransition s.params { s.ch0 with countLoadTime := s.clock } s.clock = .ok e ∧
      getOut s.params { s.ch0 with countLoadTime := s.clock } s.clock = .ok b ∧
      u = { s with
        irq := b
        ch0 := { s.ch0 with countLoadTime := s.clock, nextTransitionTime := e }
        timer := e }) := by
  unfold gateReload at h
  rcases reschedule_ok h with ⟨hc, hu⟩ | ⟨hc, e, b, he, hb, hu⟩
  · exact .inl ⟨hc, hu⟩
  · subst hc
    exact .inr ⟨rfl, e, b, he, hb, hu⟩

theorem gateReload_ne {c : Chan} (hc : c ≠ .ch0) (s : State) :
    gateReload c s = .ok (s.setCh c { s.ch c with countLoadTime := s.clock }) := by
  simp [gateReload, reschedule_ne hc]

theorem gateReload_ch0_of {s : State} {e : Option Int} {b : Bool}
    (he : nextTransition s.params { s.ch0 with countLoadTime := s.clock } s.clock = .ok e)
    (hb : getOut s.params { s.ch0 with countLoadTime := s.clock } s.clock = .ok b) :
    gateReload .ch0 s =
      .ok { s with
        irq := b
        ch0 := { s.ch0 with countLoadTime := s.clock, nextTransitionTime := e }
        timer := e } := by
  unfold gateReload
  rw [reschedule_ch0, schedulerPass_of (e := e) (b := b)]
  · rfl
  · exact he
  · exact hb

theorem gateReload_answers {c : Chan} {s : State} (h : c = .ch0 → Answers s.params s.ch0) :
    ∃ u, gateReload c s = .ok u := by
  by_cases hc : c = .ch0
  · subst hc
    exact schedulerPass_answers (s := s.setCh .ch0 _) (h rfl) (le_refl _)
  · exact ⟨_, gateReload_ne hc s⟩

/-- What a live read does when it answers. -/
theorem readLive_ok {half : Nat → Byte} {next : Sequencer} {c : Chan} {s u : State}
    (h : readLive half next c s = .ok u) :
    ∃ n, getCount s.params (s.ch c) s.clock = .ok n ∧
      u = (s.setCh c { s.ch c with readState := next }).returning (.byte (half n)) := by
  obtain ⟨b, hb, hu⟩ := map_ok h
  obtain ⟨n, hn, rfl⟩ := map_ok hb
  exact ⟨n, hn, hu.symm⟩

theorem readLive_of {half : Nat → Byte} {next : Sequencer} {c : Chan} {s : State} {n : Nat}
    (h : getCount s.params (s.ch c) s.clock = .ok n) :
    readLive half next c s =
      .ok ((s.setCh c { s.ch c with readState := next }).returning (.byte (half n))) := by
  simp [readLive, liveByte, h, Except.map]

/-- What one turn of a reset does to channels 1 and 2. -/
theorem resetOne_ne {c : Chan} (hc : c ≠ .ch0) (s : State) :
    resetOne c s =
      .ok (s.setCh c { resetChannel c (s.ch c) with count := 65536, countLoadTime := s.clock }) := by
  simp [resetOne, load_ne hc, countOfValue]

/-- What one turn of a reset does to channel 0. -/
theorem resetOne_ch0 (s : State) :
    resetOne .ch0 s =
      .ok { s with
        irq := true
        ch0 := { resetChannel .ch0 s.ch0 with
          count := 65536
          countLoadTime := s.clock
          nextTransitionTime := some (s.clock + 27462700) }
        timer := some (s.clock + 27462700) } := by
  unfold resetOne
  rw [load_ch0_of (e := some (s.clock + 27462700)) (b := true)]
  · rfl
  · exact mode3_nextTransition rfl rfl
  · exact mode3_getOut rfl rfl

end Sys2Proof.Machine
end

