-- ==== Sys2Proof/Laws/PerInstr.lean ====
section
/-! SUPPORT. Statements made one constructor at a time: the length of an operation's transaction. -/

namespace Sys2Proof.Laws

/-- The bytes of an operation's transaction, if it has one, are two and hold a word of eleven bits
(30_encoding.md R60). -/
def Length.Statement (i : Instr) : Prop := ∀ bs, encode i = some bs → ∃ lo hi : Byte, bs = [lo, hi] ∧ hi.toNat < 8

/-- A transaction of eleven bits is two bytes, the second below 8. -/
theorem transactionBytes_shape (dir : Bool) (off : BitVec 2) (v : Byte) :
    ∃ lo hi : Byte, transactionBytes dir off v = [lo, hi] ∧ hi.toNat < 8 :=
  ⟨v, _, rfl, by revert off; cases dir <;> decide⟩

/-- An operation encoded as a transaction has the length of one. -/
theorem Length.of_transaction {i : Instr} {dir : Bool} {off : BitVec 2} {v : Byte}
    (h : encode i = some (transactionBytes dir off v)) : Length.Statement i := by
  intro bs hbs
  rw [h, Option.some.injEq] at hbs
  exact hbs ▸ transactionBytes_shape dir off v

/-- A named event has no transaction. -/
theorem Length.of_named {i : Instr} (h : encode i = none) : Length.Statement i := by
  intro bs hbs
  rw [h] at hbs
  cases hbs

theorem Length.cwMode (c : Chan) (a : Access) (m : BitVec 3) (b : Bool) : Length.Statement (.cwMode c a m b) := Length.of_transaction rfl
theorem Length.cwLatch (c : Chan) : Length.Statement (.cwLatch c) := Length.of_transaction rfl
theorem Length.cwReadback (r : ReadBack) : Length.Statement (.cwReadback r) := Length.of_transaction rfl
theorem Length.wrCntLsb (c : Chan) (v : Byte) : Length.Statement (.wrCntLsb c v) := Length.of_transaction rfl
theorem Length.wrCntMsb (c : Chan) (v : Byte) : Length.Statement (.wrCntMsb c v) := Length.of_transaction rfl
theorem Length.wrCntWord0 (c : Chan) (v : Byte) : Length.Statement (.wrCntWord0 c v) := Length.of_transaction rfl
theorem Length.wrCntWord1 (c : Chan) (v : Byte) : Length.Statement (.wrCntWord1 c v) := Length.of_transaction rfl
theorem Length.wrCnt (c : Chan) (v : Byte) : Length.Statement (.wrCnt c v) := Length.of_transaction rfl
theorem Length.rdStatus (c : Chan) : Length.Statement (.rdStatus c) := Length.of_transaction rfl
theorem Length.rdLatchLsb (c : Chan) : Length.Statement (.rdLatchLsb c) := Length.of_transaction rfl
theorem Length.rdLatchMsb (c : Chan) : Length.Statement (.rdLatchMsb c) := Length.of_transaction rfl
theorem Length.rdLatchWord0 (c : Chan) : Length.Statement (.rdLatchWord0 c) := Length.of_transaction rfl
theorem Length.rdLiveLsb (c : Chan) : Length.Statement (.rdLiveLsb c) := Length.of_transaction rfl
theorem Length.rdLiveMsb (c : Chan) : Length.Statement (.rdLiveMsb c) := Length.of_transaction rfl
theorem Length.rdLiveWord0 (c : Chan) : Length.Statement (.rdLiveWord0 c) := Length.of_transaction rfl
theorem Length.rdLiveWord1 (c : Chan) : Length.Statement (.rdLiveWord1 c) := Length.of_transaction rfl
theorem Length.rdCnt (c : Chan) : Length.Statement (.rdCnt c) := Length.of_transaction rfl
theorem Length.rdCtrl : Length.Statement .rdCtrl := Length.of_transaction rfl
theorem Length.gate (c : Chan) (l : Nat) : Length.Statement (.gate c l) := Length.of_named rfl
theorem Length.getGate (c : Chan) : Length.Statement (.getGate c) := Length.of_named rfl
theorem Length.getCount (c : Chan) : Length.Statement (.getCount c) := Length.of_named rfl
theorem Length.getMode (c : Chan) : Length.Statement (.getMode c) := Length.of_named rfl
theorem Length.getOut (c : Chan) : Length.Statement (.getOut c) := Length.of_named rfl
theorem Length.hpetDisable : Length.Statement .hpetDisable := Length.of_named rfl
theorem Length.hpetEnable : Length.Statement .hpetEnable := Length.of_named rfl
theorem Length.expire : Length.Statement .expire := Length.of_named rfl
theorem Length.reset : Length.Statement .reset := Length.of_named rfl

end Sys2Proof.Laws
end

