-- ==== Sys2Proof/Tests/Slice0.lean ====
section
/-! SUPPORT. Tests: well-formedness, decoding of words written out from the spec, one-step vectors of
95_test_vectors.md, and a witness for the hypotheses of every statement. Expected values come from the spec. -/

namespace Sys2Proof.Tests

open Sys2Proof.Machine

/-- The next state, if there is one. -/
def nextOf : Host.Outcome State Fault Refusal → Option State
  | .next t => some t
  | .fault _ => none
  | .refused _ => none

/-- The refusal, if there is one. -/
def refusalOf : Host.Outcome State Fault Refusal → Option Refusal
  | .next _ => none
  | .fault _ => none
  | .refused r => some r

/-- The value an operation returns. -/
def returned (i : Instr) (s : State) : Option Result := (nextOf (exec i s)).bind State.result

/-- A programmed channel with nothing latched. -/
def chan (mode : BitVec 3) (count : Nat) (load : Int) (a : Access) : Channel :=
  { Channel.constructed load true 0 with
    mode := mode
    count := count
    rwMode := a.toBits
    readState := Sequencer.ofAccess a
    writeState := Sequencer.ofAccess a }

/-- The state after construction with channel `c` replaced, at time `now`. -/
def put (c : Chan) (x : Channel) (now : Int) : State := { State.reset.setCh c x with clock := now }

/-- The state after construction with another setting of the two open behaviours. -/
def refusing : State := { State.reset with params := { resetParams with mode67 := .refuse, unprog := .refuse } }

/-! ### Well-formedness -/

theorem test_gate_level_2_is_ill_formed : Instr.wellFormed (.gate .ch0 2) = false := by decide
theorem test_gate_levels_0_1_are_well_formed :
    Instr.wellFormed (.gate .ch2 0) = true ∧ Instr.wellFormed (.gate .ch2 1) = true := by decide

/-! ### Decoding: words of 30_encoding.md R70 and 95_test_vectors.md 3.6 to 3.8 -/

/-- T50 to T55b: 0x710 is 1 11 00 01 000 0 (write, offset 3, SC 0, RW 1, mode 0, BCD 0), and so on. -/
theorem test_decode_cwMode :
    decodeTableWord 16 0b11100010000 = some (.cwMode .ch0 .lsb 0 false) ∧
    decodeTableWord 16 0b11100100100 = some (.cwMode .ch0 .msb 2 false) ∧
    decodeTableWord 16 0b11100110101 = some (.cwMode .ch0 .word 2 true) ∧
    decodeTableWord 16 0b11101111010 = some (.cwMode .ch1 .word 5 false) ∧
    decodeTableWord 16 0b11110110110 = some (.cwMode .ch2 .word 3 false) ∧
    decodeTableWord 16 0b11100111111 = some (.cwMode .ch0 .word 7 true) := by decide
/-- T56 to T58. -/
theorem test_decode_cwLatch :
    decodeTableWord 16 0b11100000000 = some (.cwLatch .ch0) ∧
    decodeTableWord 16 0b11101001111 = some (.cwLatch .ch1) ∧
    decodeTableWord 16 0b11110000000 = some (.cwLatch .ch2) := by decide
/-- T60 to T66. -/
theorem test_decode_cwReadback :
    decodeTableWord 16 0b11111000010 = some (.cwReadback ⟨true, true, true, false, false⟩) ∧
    decodeTableWord 16 0b11111010100 = some (.cwReadback ⟨true, false, false, true, false⟩) ∧
    decodeTableWord 16 0b11111100010 = some (.cwReadback ⟨false, true, true, false, false⟩) ∧
    decodeTableWord 16 0b11111001110 = some (.cwReadback ⟨true, true, true, true, true⟩) ∧
    decodeTableWord 16 0b11111001000 = some (.cwReadback ⟨true, true, false, false, true⟩) ∧
    decodeTableWord 16 0b11111000000 = some (.cwReadback ⟨true, true, false, false, false⟩) ∧
    decodeTableWord 16 0b11111000011 = some (.cwReadback ⟨true, true, true, false, false⟩) := by decide
/-- T70, T72, T74: write, offset, data. -/
theorem test_decode_wrCnt :
    decodeTableWord 16 0b10100100000 = some (.wrCnt .ch1 0x20) ∧
    decodeTableWord 16 0b11000010010 = some (.wrCnt .ch2 0x12) ∧
    decodeTableWord 16 0b10011101000 = some (.wrCnt .ch0 0xE8) := by decide
/-- Reads of the three counter ports and of the control port (T94). -/
theorem test_decode_reads :
    decodeTableWord 16 0b00000000000 = some (.rdCnt .ch0) ∧
    decodeTableWord 16 0b00100000000 = some (.rdCnt .ch1) ∧
    decodeTableWord 16 0b01000000000 = some (.rdCnt .ch2) ∧
    decodeTableWord 16 0b01100000000 = some .rdCtrl := by decide
/-- Eleven-bit tables number the word alike; a row of no bits and a word above `T[10]` have no operation. -/
theorem test_decode_edges :
    decodeTableWord 11 0x734 = some (.cwMode .ch0 .word 2 false) ∧ decodeTableWord 0 0 = none ∧
    decodeTableWord 16 0x800 = none ∧ decode [0] = .error .length := by decide

/-- The sub-form is the one whose `when` holds: T70, T72, T74, T75, T79b. -/
theorem test_select_writes :
    select (put .ch1 (chan 0 5 0 .lsb) 0) (.wrCnt .ch1 0x20) = .wrCntLsb .ch1 0x20 ∧
    select (put .ch2 (chan 0 5 0 .msb) 0) (.wrCnt .ch2 0x12) = .wrCntMsb .ch2 0x12 ∧
    select (put .ch0 (chan 0 5 0 .word) 0) (.wrCnt .ch0 0xE8) = .wrCntWord0 .ch0 0xE8 ∧
    select (put .ch0 { chan 0 5 0 .word with writeState := .word1 } 0) (.wrCnt .ch0 3) = .wrCntWord1 .ch0 3 ∧
    select State.reset (.wrCnt .ch0 3) = .wrCnt .ch0 3 := by decide
/-- T80 to T83. -/
theorem test_select_latched_reads :
    select (put .ch0 { chan 0 5 0 .word with statusLatched := true, countLatched := 3 } 0) (.rdCnt .ch0) =
      .rdStatus .ch0 ∧
    select (put .ch1 { chan 0 5 0 .word with countLatched := 1 } 0) (.rdCnt .ch1) = .rdLatchLsb .ch1 ∧
    select (put .ch2 { chan 0 5 0 .word with countLatched := 2 } 0) (.rdCnt .ch2) = .rdLatchMsb .ch2 ∧
    select (put .ch0 { chan 0 5 0 .word with countLatched := 3 } 0) (.rdCnt .ch0) = .rdLatchWord0 .ch0 := by decide
/-- T85, T86, T88, T89, T93. -/
theorem test_select_live_reads :
    select (put .ch0 (chan 0 5 0 .lsb) 0) (.rdCnt .ch0) = .rdLiveLsb .ch0 ∧
    select (put .ch1 (chan 0 5 0 .msb) 0) (.rdCnt .ch1) = .rdLiveMsb .ch1 ∧
    select (put .ch2 (chan 0 5 0 .word) 0) (.rdCnt .ch2) = .rdLiveWord0 .ch2 ∧
    select (put .ch0 { chan 0 5 0 .word with readState := .word1 } 0) (.rdCnt .ch0) = .rdLiveWord1 .ch0 ∧
    select State.reset (.rdCnt .ch0) = .rdCnt .ch0 := by decide

/-! ### The time model: 95_test_vectors.md 3.1 to 3.4 -/

/-- T1 to T12. -/
theorem test_elapsed_ticks :
    [0, 838, 839, 1676, 1677, 500000, 1000000, 54925401, 54925402, 500000000, 1000000000, 4611686018427387904].map
      timeToTicks = [0, 0, 1, 1, 2, 596, 1193, 65535, 65536, 596591, 1193182, 5502580746839227] := by decide
/-- T13. -/
theorem test_tick_time :
    [1, 2, 500, 1001, 32768, 65537, 131073, 596591].map ticksToTime =
      [838, 1676, 419047, 838933, 27462700, 54926239, 109851640, 500000000] := by decide
/-- T14, T17, T19. -/
theorem test_get_count_small :
    [0, 1, 4, 5, 6, 7, 11].map (countAt .mode0 5) = [5, 4, 1, 0, 65535, 65534, 65530] ∧
    [0, 1, 4, 5, 6, 9, 10].map (countAt .mode2 5) = [5, 4, 1, 5, 4, 1, 5] ∧
    [0, 1, 2, 3, 4, 5, 6].map (countAt .mode3 5) = [5, 3, 1, 4, 2, 5, 3] := by decide
/-- T15, T18, T19b. -/
theorem test_get_count_full :
    [0, 1, 32767, 65536, 65537].map (countAt .mode1 65536) = [0, 65535, 32769, 0, 65535] ∧
    [0, 65535, 65536].map (countAt .mode2 65536) = [65536, 1, 65536] ∧
    [0, 1, 32767, 32768].map (countAt .mode3 65536) = [65536, 65534, 2, 65536] := by decide
/-- T20 to T26: the OUT row. -/
theorem test_out_rows :
    [4, 5].map (outAt .mode0 5) = [false, true] ∧ [4, 5].map (outAt .mode1 5) = [true, false] ∧
    [0, 4, 5, 6, 10].map (outAt .mode2 5) = [false, false, true, false, true] ∧
    [0, 2, 3, 4, 5].map (outAt .mode3 5) = [true, true, false, false, true] ∧
    [4, 5, 6].map (outAt .mode4 5) = [false, true, false] ∧ [1, 2].map (outAt .mode5 1) = [true, false] := by decide
/-- T20 to T26: the `n` row. -/
theorem test_next_ticks_rows :
    [4, 5].map (nextTicksAt .mode0 5) = [some 5, none] ∧ [4, 5].map (nextTicksAt .mode1 5) = [some 5, none] ∧
    [0, 4, 5, 6, 10].map (nextTicksAt .mode2 5) = [some 6, some 6, some 10, some 11, some 15] ∧
    [0, 2, 3, 5, 8].map (nextTicksAt .mode3 5) = [some 3, some 3, some 5, some 8, some 10] ∧
    [4, 5, 6].map (nextTicksAt .mode5 5) = [some 5, some 6, none] ∧
    [0, 1, 2].map (nextTicksAt .mode2 1) = [some 2, some 2, some 3] := by decide
/-- T33 to T39. -/
theorem test_next_transition :
    nextTransition resetParams (chan 0 1000 300 .word) 300 = .ok (some 838395) ∧
    nextTransition resetParams (chan 0 1000 300 .word) 838395 = .ok (some 838396) ∧
    nextTransition resetParams (chan 0 1000 300 .word) 838396 = .ok none ∧
    nextTransition resetParams (chan 2 1000 300 .word) 839233 = .ok (some 1676490) ∧
    nextTransition resetParams (chan 3 2 0 .word) 499999162 = .ok (some 500000000) := by decide

/-! ### Operations, one step each -/

/-- T52. -/
theorem test_cwMode :
    (nextOf (exec (.cwMode .ch0 .word 2 false) State.reset)).map
      (fun t => ((t.ch0.rwMode, t.ch0.readState, t.ch0.writeState), t.ch0.mode, t.irq, t.timer)) =
      some ((3, .word0, .word0), 2, true, some 27462700) := by decide
/-- Scenario S2. -/
theorem test_cwLatch :
    (nextOf (exec (.cwLatch .ch0) (put .ch0 (chan 2 1000 300 .word) 500300))).map
      (fun t => (t.ch0.latchedCount, t.ch0.countLatched)) = some (0x0194, 3) := by decide
/-- T59: nothing is pending on an unprogrammed channel. -/
theorem test_cwLatch_unprogrammed :
    (nextOf (exec (.cwLatch .ch1) State.reset)).map (fun t => (t.ch1.latchedCount, t.ch1.countLatched)) =
      some (0, 0) := by decide
/-- Program P6: 0xC2 at 3000 with bcd = 1, mode 2, count 65536 loaded at 0. -/
theorem test_cwReadback :
    (nextOf (exec (.cwReadback ⟨true, true, true, false, false⟩)
      (put .ch0 { chan 2 65536 0 .word with bcd := true } 3000))).map
      (fun t => (t.ch0.latchedCount, t.ch0.countLatched, t.ch0.status, t.ch0.statusLatched, t.ch1.statusLatched)) =
      some (0xFFFD, 3, 0x35, true, false) := by decide
/-- T70, T71. -/
theorem test_wrCntLsb :
    (nextOf (exec (.wrCntLsb .ch1 0x20) (put .ch1 (chan 2 7 0 .lsb) 900))).map
      (fun t => (t.ch1.count, t.ch1.countLoadTime, t.ch1.writeState, t.timer)) =
      some (32, 900, .lsb, some 27462700) ∧
    (nextOf (exec (.wrCntLsb .ch1 0) (put .ch1 (chan 2 7 0 .lsb) 900))).map (fun t => t.ch1.count) = some 65536 := by
  decide
/-- T72, T73. -/
theorem test_wrCntMsb :
    (nextOf (exec (.wrCntMsb .ch2 0x12) (put .ch2 (chan 2 7 0 .msb) 900))).map (fun t => (t.ch2.count, t.ch2.writeState)) =
      some (4608, .msb) ∧
    (nextOf (exec (.wrCntMsb .ch2 0) (put .ch2 (chan 2 7 0 .msb) 900))).map (fun t => t.ch2.count) = some 65536 := by decide
/-- T74. -/
theorem test_wrCntWord0 :
    (nextOf (exec (.wrCntWord0 .ch0 0xE8) (put .ch0 (chan 2 7 0 .word) 900))).map
      (fun t => (t.ch0.writeLatch, t.ch0.writeState, t.ch0.count, t.ch0.countLoadTime, t.timer)) =
      some (0xE8, .word1, 7, 0, some 27462700) := by decide
/-- T75, program P2: the pass at 300. -/
theorem test_wrCntWord1 :
    (nextOf (exec (.wrCntWord1 .ch0 0x03)
      (put .ch0 { chan 2 7 0 .word with writeState := .word1, writeLatch := 0xE8 } 300))).map
      (fun t => ((t.ch0.count, t.ch0.countLoadTime, t.ch0.writeState), t.ch0.writeLatch, t.irq, t.timer)) =
      some ((1000, 300, .word0), 0xE8, false, some 839233) := by decide
/-- T79b under UNPROG = refuse; 93 U2 under as_LSB. -/
theorem test_wrCnt :
    refusalOf (exec (.wrCnt .ch1 5) refusing) = some .unprogrammed ∧
    (nextOf (exec (.wrCnt .ch1 5) State.reset)).map (fun t => (t.ch1.count, t.ch1.writeState)) =
      some (5, .unprogrammed) := by decide
/-- T80. -/
theorem test_rdStatus :
    (nextOf (exec (.rdStatus .ch0)
      (put .ch0 { chan 3 5 0 .word with statusLatched := true, status := 0xB6, countLatched := 3 } 0))).map
      (fun t => (t.result, t.ch0.statusLatched, t.ch0.countLatched)) = some (some (.byte 0xB6), false, 3) := by decide
/-- T81. -/
theorem test_rdLatchLsb :
    (nextOf (exec (.rdLatchLsb .ch2) (put .ch2 { chan 0 5 0 .lsb with countLatched := 1, latchedCount := 0xF715 } 0))).map
      (fun t => (t.result, t.ch2.countLatched)) = some (some (.byte 0x15), 0) := by decide
/-- T82. -/
theorem test_rdLatchMsb :
    (nextOf (exec (.rdLatchMsb .ch0) (put .ch0 { chan 0 5 0 .word with countLatched := 2, latchedCount := 0x146C } 0))).map
      (fun t => (t.result, t.ch0.countLatched)) = some (some (.byte 0x14), 0) := by decide
/-- T83. -/
theorem test_rdLatchWord0 :
    (nextOf (exec (.rdLatchWord0 .ch0) (put .ch0 { chan 0 5 0 .word with countLatched := 3, latchedCount := 0x0194 } 0))).map
      (fun t => (t.result, t.ch0.countLatched, t.ch0.readState)) = some (some (.byte 0x94), 2, .word0) := by decide
/-- Program P3: channel 2 at 2700000, T85. -/
theorem test_rdLiveLsb : returned (.rdLiveLsb .ch2) (put .ch2 (chan 0 100 5000 .lsb) 2700000) = some (.byte 0xD5) := by
  decide +kernel
/-- T86 at the time of program P2 (d = 1431), T87. -/
theorem test_rdLiveMsb :
    returned (.rdLiveMsb .ch0) (put .ch0 (chan 2 1000 300 .msb) 1200302) = some (.byte 0x02) ∧
    returned (.rdLiveMsb .ch0) (put .ch0 (chan 2 65536 300 .msb) 300) = some (.byte 0x00) := by decide
/-- T88. -/
theorem test_rdLiveWord0 :
    (nextOf (exec (.rdLiveWord0 .ch0) (put .ch0 (chan 2 1000 300 .word) 1200302))).map
      (fun t => (t.result, t.ch0.readState)) = some (some (.byte 0x39), .word1) := by decide
/-- T89. -/
theorem test_rdLiveWord1 :
    (nextOf (exec (.rdLiveWord1 .ch0) (put .ch0 { chan 2 1000 300 .word with readState := .word1 } 1200303))).map
      (fun t => (t.result, t.ch0.readState)) = some (some (.byte 0x02), .word0) := by decide
/-- T93 under UNPROG = refuse; 93 U2 under as_LSB (mode 3, count 65536, d = 1: 65534). -/
theorem test_rdCnt :
    refusalOf (exec (.rdCnt .ch0) refusing) = some .unprogrammed ∧
    returned (.rdCnt .ch0) { State.reset with clock := 839 } = some (.byte 0xFE) := by decide
/-- T94, T130. -/
theorem test_rdCtrl : refusalOf (exec .rdCtrl State.reset) = some .controlPortRead := by decide
/-- T100, T104. -/
theorem test_gate_rising :
    (nextOf (exec (.gate .ch0 1) (put .ch0 { chan 1 500 3000 .word with gate := false } 1000000))).map
      (fun t => (t.ch0.countLoadTime, t.irq, t.timer, t.ch0.gate)) = some (1000000, true, some 1419047, true) := by decide
/-- T103, T106, T108: a falling edge, mode 4, an illegal level. -/
theorem test_gate_no_reload :
    (nextOf (exec (.gate .ch0 0) { State.reset with clock := 500 })).map
      (fun t => (t.ch0.gate, t.ch0.countLoadTime, t.timer)) = some (false, 0, some 27462700) ∧
    (nextOf (exec (.gate .ch2 1) (put .ch2 { chan 4 5 3 .lsb with gate := false } 500))).map
      (fun t => (t.ch2.gate, t.ch2.countLoadTime)) = some (true, 3) ∧
    refusalOf (exec (.gate .ch0 2) State.reset) = some .gateLevel := by decide
/-- T110. -/
theorem test_getters :
    returned (.getCount .ch0) State.reset = some (.count 65536) ∧ returned (.getMode .ch0) State.reset = some (.mode 3) ∧
    returned (.getGate .ch0) State.reset = some (.gate true) ∧ returned (.getGate .ch2) State.reset = some (.gate false) := by
  decide
/-- T111, T112: computed, not the stored line. -/
theorem test_getOut :
    returned (.getOut .ch0) { State.reset with clock := 27462700 } = some (.out true) ∧
    returned (.getOut .ch0) { State.reset with clock := 27462701 } = some (.out false) := by decide
/-- T113. -/
theorem test_hpetDisable :
    (nextOf (exec .hpetDisable State.reset)).map (fun t => (t.timer, t.ch0.nextTransitionTime, t.irq)) =
      some (none, some 27462700, true) := by decide
/-- T115. -/
theorem test_hpetEnable :
    (nextOf (exec .hpetEnable { put .ch0 { chan 2 7 0 .word with gate := false } 5000000 with timer := none })).map
      (fun t => ((t.ch0.mode, t.ch0.gate, t.ch0.count), t.ch0.countLoadTime, t.irq, t.timer)) =
      some ((3, true, 65536), 5000000, true, some 32462700) := by decide
/-- T40: the first and the second expiry after construction. -/
theorem test_expire :
    (nextOf (exec .expire { State.reset with clock := 27462700 })).map (fun t => (t.irq, t.timer)) =
      some (true, some 27462701) ∧
    (nextOf (exec .expire
      { put .ch0 { State.reset.ch0 with nextTransitionTime := some 27462701 } 30000000 with
        timer := some 27462701 })).map (fun t => (t.irq, t.timer)) = some (false, some 54925401) := by decide
/-- T113 and 44_irq_scheduler.md R143. -/
theorem test_expire_not_enabled :
    refusalOf (exec .expire { State.reset with timer := none }) = some .expireNotArmed ∧
    refusalOf (exec .expire { State.reset with clock := 27462699 }) = some .expireNotDue := by decide
/-- T121, channel 0 of program P6. -/
theorem test_reset_operation :
    (nextOf (exec .reset
      (put .ch0 { chan 3 65536 5000000 .word with
        bcd := true, writeState := .word1, writeLatch := 0x34, latchedCount := 0xFFFD, countLatched := 3,
        statusLatched := true, status := 0x35 } 6000000))).map State.ch0 =
      some { count := 65536, countLoadTime := 6000000, mode := 3, bcd := true, gate := true, rwMode := 0,
             readState := .unprogrammed, writeState := .unprogrammed, writeLatch := 0x34, latchedCount := 0xFFFD,
             countLatched := 0, statusLatched := false, status := 0x35, nextTransitionTime := some 33462700 } := by decide
/-- T120. -/
theorem test_state_reset :
    (State.reset.ch0.nextTransitionTime, State.reset.ch1.nextTransitionTime, State.reset.ch2.nextTransitionTime,
      State.reset.timer, State.reset.irq, State.reset.ch2.gate) =
      (some 27462700, some 0, some 0, some 27462700, true, false) := by decide

/-! ### Refusals of 95_test_vectors.md 3.12 -/

/-- T132. -/
theorem test_mode67_refused :
    refusalOf (exec (.getOut .ch0) { refusing with ch0 := chan 6 5 0 .word }) = some .mode67 ∧
    refusalOf (exec (.gate .ch0 0) { refusing with ch0 := chan 7 5 0 .word }) = some .mode67 := by decide
/-- T134. -/
theorem test_time_before_load : refusalOf (exec (.getOut .ch0) (put .ch0 (chan 2 5 10 .word) 9)) = some .timeBeforeLoad := by
  decide

/-! ### Steps -/

/-- T52 through a step: the access OUT 3,0x34 one microsecond after construction. -/
theorem test_step_out_control :
    (nextOf (step { State.reset with inbox := [⟨1000, .port ⟨true, 0x43, 1, 0x34⟩⟩] })).map
      (fun t => (t.ch0.mode, t.ch0.rwMode, t.clock, t.inbox)) = some (2, 3, 1000, []) := by decide
/-- T133: a 16-bit access, and an address outside the four ports. -/
theorem test_step_bad_access :
    refusalOf (step { State.reset with inbox := [⟨0, .port ⟨true, 0x40, 2, 0⟩⟩] }) = some .badPortAccess ∧
    refusalOf (step { State.reset with inbox := [⟨0, .port ⟨false, 0x44, 1, 0⟩⟩] }) = some .badPortAccess := by decide
/-- `withFetchWord` makes the very next step run the word. -/
theorem test_withFetchWord :
    (nextOf (step (State.reset.withFetchWord 16 0x734))).map (fun t => (t.ch0.mode, t.ch0.rwMode, t.inbox)) =
      some (2, 3, []) ∧
    refusalOf (step (State.reset.withFetchWord 16 0x300)) = some .controlPortRead := by decide
/-- A named event, and the idle step. -/
theorem test_step_named :
    (nextOf (step { State.reset with inbox := [⟨27462700, .named .expire⟩] })).map (fun t => t.timer) =
      some (some 27462701) ∧ nextOf (step State.reset) = some State.reset := by decide

/-! ### Witnesses: states and operands that meet the hypotheses of each statement, clause by clause -/

/-- A state with channel 0 loaded at 300 in mode 2, count 1000, and programmed for two bytes; the time is 500300. -/
def busy : State := put .ch0 (chan 2 1000 300 .word) 500300

/-- The read-back of count and status of channel 0. -/
def readBoth : ReadBack := ⟨true, true, true, false, false⟩

/-- A channel as construction leaves it meets its invariant. -/
theorem constructed_channel_inv (gate : Bool) (next : Int) : (Channel.constructed 0 gate next).Inv 0 0 where
  count_pos := (by decide : 1 ≤ 65536)
  count_le := le_refl 65536
  load_past := le_refl (0 : Int)
  read_programmed := iff_of_true rfl rfl
  write_programmed := iff_of_true rfl rfl
  status_bit6 := (by decide : (0 : Byte).getLsbD 6 = false)
  load_after_init := le_refl (0 : Int)
  read_access := rfl
  write_access := rfl
  unprogrammed_unlatched := fun _ => rfl

theorem reset_inv : State.reset.Inv where
  ch0 := constructed_channel_inv true _
  ch1 := constructed_channel_inv true _
  ch2 := constructed_channel_inv false _
  timer_next := by decide

theorem answers_of_free {s : State} (c : Chan) (h : s.params.mode67 = .free) : Answers s.params (s.ch c) :=
  .inr (by simp [h])

theorem witness_ElapsedTicks :
    (chan 0 5 300 .word).countLoadTime ≤ 300 ∧
    timeToTicks 838 = 0 ∧ timeToTicks 839 = 1 ∧ ((1 : Int) * 1000000000 + 1193181) / 1193182 = 839 := by decide
theorem witness_CounterValue : ∀ m ∈ ([0, 1, 2, 3, 4, 5] : List (BitVec 3)), ∀ n ∈ [1, 65536],
    (chan m n 300 .word).countLoadTime ≤ 300 ∧ 1 ≤ (chan m n 300 .word).count ∧ (chan m n 300 .word).mode = m := by
  decide
theorem witness_OutLevel : ∀ m ∈ ([0, 1, 2, 3, 4, 5] : List (BitVec 3)),
    (chan m 1 300 .word).countLoadTime ≤ 300 ∧ (chan m 1 300 .word).mode.toNat ≤ 5 := by decide
theorem witness_NextTicks : ∀ m ∈ ([0, 1, 2, 3, 4, 5] : List (BitVec 3)),
    (chan m 1 300 .word).countLoadTime ≤ 300 ∧ (chan m 1 300 .word).mode = m := by decide
theorem witness_NextTransitionConversion :
    nextTicks resetParams (chan 0 1 300 .word) 299 = .error .timeBeforeLoad ∧
    nextTicks resetParams (chan 0 1 300 .word) 1139 = .ok none ∧
    nextTicks resetParams (chan 0 1 300 .word) 1138 = .ok (some 1) ∧
    nextTransition resetParams (chan 0 1 300 .word) 1138 = .ok (some 1139) := by decide
theorem witness_TickTimeRoundTrip : 1 ≤ 1 ∧ ¬ 596591 ∣ 1 ∧ 1 ≤ 596591 ∧ 596591 ∣ 596591 := by decide
theorem witness_NextTicksIsEarliestChange :
    nextTicksAt .mode0 1 0 = some 1 ∧ nextTicksAt .mode0 1 1 = none ∧ nextTicksAt .mode3 2 1 = some 2 ∧
    nextTicksAt .mode4 1 1 = some 2 ∧ nextTicksAt .mode5 1 2 = none := by decide
theorem witness_Mode2NextTicksSkipsAnEdge : nextTicksAt .mode2 2 0 = some 3 ∧ nextTicksAt .mode2 2 2 = some 4 := by decide
theorem witness_OutIsPeriodic : 1 ≤ 1 ∧ outAt .mode2 1 1 = true ∧ outAt .mode2 1 0 = false := by decide
theorem witness_TwoStepExpiry :
    OpMode.ofField (chan 0 1000 300 .word).mode = some .mode0 ∧ 1 ≤ (chan 0 1000 300 .word).count ∧
    nextTicks resetParams (chan 0 1000 300 .word) 300 = .ok (some 1000) ∧ ¬ 596591 ∣ 1000 := by decide
theorem witness_Modes6And7FollowTheSetting : ∀ m ∈ ([6, 7] : List (BitVec 3)),
    ∀ k ∈ [Mode67.refuse, .sourceDefaultArms, .aliased, .free],
    ((chan m 5 300 .word).mode = 6 ∨ (chan m 5 300 .word).mode = 7) ∧ (chan m 5 300 .word).countLoadTime ≤ 300 ∧
    { resetParams with mode67 := k }.mode67 = k := by decide
theorem witness_QueryBeforeLoadStops :
    let s := put .ch0 (chan 2 5 10 .word) 9
    s.clock < (s.ch .ch0).countLoadTime ∧ (s.ch .ch0).countLatched = 0 ∧ liveView (s.ch .ch0) = true ∧
    (s.ch .ch0).readState ≠ .unprogrammed := by decide
theorem witness_CwLatchResult :
    ({ chan 2 5 0 .word with countLatched := 3 } : Channel).countLatched ≠ 0 ∧ (busy.ch .ch0).countLatched = 0 ∧
    (busy.ch .ch0).countLoadTime ≤ busy.clock := by decide
theorem witness_CwLatchResult_answers : Answers busy.params (busy.ch .ch0) := answers_of_free .ch0 rfl
theorem witness_SecondLatchIsIgnored : (busy.ch .ch0).rwMode ≠ 0 ∧ ∃ t, exec (.cwLatch .ch0) busy = .next t :=
  ⟨by decide, _, rfl⟩
theorem witness_CwReadbackResult :
    (∀ c, (⟨true, true, false, false, false⟩ : ReadBack).selects c = false) ∧
    (⟨false, false, true, true, true⟩ : ReadBack).count = false ∧
    (⟨true, true, true, true, true⟩ : ReadBack).selects .ch2 = true ∧
    ∀ c, (busy.ch c).countLoadTime ≤ busy.clock ∧ Answers busy.params (busy.ch c) :=
  ⟨by intro c; cases c <;> rfl, rfl, rfl, fun c => ⟨by cases c <;> decide, answers_of_free c rfl⟩⟩
theorem witness_StatusRepeatsControlWord :
    ∃ t u, exec (.cwMode .ch0 .word 3 true) busy = .next t ∧ (busy.ch .ch0).statusLatched = false ∧
      readBoth.selects .ch0 = true ∧ readBoth.status = true ∧ exec (.cwReadback readBoth) t = .next u :=
  ⟨_, _, rfl, rfl, rfl, rfl, rfl⟩
theorem witness_ControlWritesKeepTheSchedule :
    (∃ t, exec (.cwMode .ch0 .lsb 0 false) busy = .next t) ∧ (∃ t, exec (.cwLatch .ch0) busy = .next t) ∧
    ∃ t, exec (.cwReadback readBoth) busy = .next t := ⟨⟨_, rfl⟩, ⟨_, rfl⟩, ⟨_, rfl⟩⟩
theorem witness_WrCntByteResults :
    ((put .ch0 (chan 2 5 0 .lsb) 9).ch .ch0).writeState = .lsb ∧ ((put .ch2 (chan 2 5 0 .lsb) 9).ch .ch2).writeState = .lsb ∧
    ((put .ch0 (chan 2 5 0 .msb) 9).ch .ch0).writeState = .msb ∧ ((put .ch1 (chan 2 5 0 .msb) 9).ch .ch1).writeState = .msb ∧
    (0 : Byte).toNat = 0 ∧ (255 : Byte).toNat = 255 := by decide
theorem witness_WrCntByteResults_answers : Answers busy.params busy.ch0 := answers_of_free .ch0 rfl
theorem witness_WrCntWord0Result : (busy.ch .ch0).writeState = .word0 := rfl
theorem witness_WrCntWord1Result :
    ((put .ch0 { chan 2 5 0 .word with writeState := .word1 } 9).ch .ch0).writeState = .word1 ∧
    ((put .ch1 { chan 2 5 0 .word with writeState := .word1 } 9).ch .ch1).writeState = .word1 := by decide
theorem witness_WrCntUnprogrammed :
    (refusing.ch .ch1).writeState = .unprogrammed ∧ refusing.params.unprog = .refuse ∧
    (State.reset.ch .ch1).writeState = .unprogrammed ∧ State.reset.params.unprog = .asLsb := by decide
theorem witness_LoadArmsTheTimer :
    (∃ t, exec (.wrCntLsb .ch0 1) (put .ch0 (chan 3 5 0 .lsb) 9) = .next t) ∧
    (∃ t, exec (.wrCntMsb .ch0 0) (put .ch0 (chan 2 5 0 .msb) 9) = .next t) ∧
    (∃ t, exec (.wrCntWord1 .ch0 0) (put .ch0 { chan 0 5 0 .word with writeState := .word1 } 9) = .next t) ∧
    ∀ m ∈ ([0, 1, 2, 3, 4, 5] : List (BitVec 3)), OpMode.ofField (chan m 5 0 .lsb).mode ≠ none :=
  ⟨⟨_, rfl⟩, ⟨_, rfl⟩, ⟨_, rfl⟩, by decide⟩
theorem witness_TwoByteWriteRoundTrip :
    ∃ t u v, exec (.wrCntWord0 .ch0 0) busy = .next t ∧
      exec (.wrCntWord1 .ch0 0) { t with clock := 600000 } = .next u ∧ exec (.getCount .ch0) u = .next v :=
  ⟨_, _, _, rfl, rfl, rfl⟩
theorem witness_RdStatusResult : ((put .ch0 { chan 3 5 0 .word with statusLatched := true } 0).ch .ch0).statusLatched = true :=
  rfl
theorem witness_RdLatchResults : ∀ k ∈ ([1, 2, 3] : List (BitVec 2)),
    ((put .ch0 { chan 3 5 0 .word with countLatched := k } 0).ch .ch0).statusLatched = false ∧
    ((put .ch0 { chan 3 5 0 .word with countLatched := k } 0).ch .ch0).countLatched = k := by decide
theorem witness_RdLiveResults : ∀ q ∈ [Sequencer.lsb, .msb, .word0, .word1],
    let s := put .ch0 { chan 3 5 9 .word with readState := q } 9
    (s.ch .ch0).statusLatched = false ∧ (s.ch .ch0).countLatched = 0 ∧ (s.ch .ch0).countLoadTime ≤ s.clock ∧
    (s.ch .ch0).readState = q ∧ OpMode.ofField (s.ch .ch0).mode ≠ none := by decide
theorem witness_RdCntUnprogrammed :
    (State.reset.ch .ch0).statusLatched = false ∧ (State.reset.ch .ch0).countLatched = 0 ∧
    (State.reset.ch .ch0).readState = .unprogrammed ∧ (State.reset.ch .ch0).countLoadTime ≤ State.reset.clock ∧
    OpMode.ofField (State.reset.ch .ch0).mode ≠ none ∧ (refusing.ch .ch0).readState = .unprogrammed := by decide
theorem witness_ReadsChangeOnlyTheirFlags :
    isCounterRead (.rdLiveWord0 .ch0) = true ∧ channelOf (.rdLiveWord0 .ch0) = some .ch0 ∧
    ∃ t, exec (.rdLiveWord0 .ch0) busy = .next t := ⟨rfl, rfl, _, rfl⟩
theorem witness_LatchedReadIsOneSnapshot :
    ∃ t u v, (busy.ch .ch0).statusLatched = false ∧ (busy.ch .ch0).countLatched = 0 ∧ (busy.ch .ch0).rwMode = 3 ∧
      getCount busy.params (busy.ch .ch0) busy.clock = .ok 404 ∧ exec (.cwLatch .ch0) busy = .next t ∧
      exec (select { t with clock := 700000 } (.rdCnt .ch0)) { t with clock := 700000 } = .next u ∧
      exec (select { u with clock := 800000 } (.rdCnt .ch0)) { u with clock := 800000 } = .next v :=
  ⟨_, _, _, rfl, rfl, rfl, by decide, rfl, rfl, rfl⟩
theorem witness_StatusIsReadBeforeCount :
    ∃ t u v w, (busy.ch .ch0).rwMode = 3 ∧ readBoth.selects .ch0 = true ∧ readBoth.count = true ∧
      exec (.cwReadback readBoth) busy = .next t ∧ exec (select t (.rdCnt .ch0)) t = .next u ∧
      exec (select u (.rdCnt .ch0)) u = .next v ∧ exec (select v (.rdCnt .ch0)) v = .next w :=
  ⟨_, _, _, _, rfl, rfl, rfl, rfl, rfl, rfl, rfl⟩
theorem witness_WritesChangeOnlyTheirFields :
    isCounterWrite (.wrCntWord0 .ch0 7) = true ∧ channelOf (.wrCntWord0 .ch0 7) = some .ch0 ∧
    ∃ t, exec (.wrCntWord0 .ch0 7) busy = .next t := ⟨rfl, rfl, _, rfl⟩
theorem witness_SelectionFollowsTheTable :
    whenHolds busy (.rdLiveWord0 .ch0) = true ∧ whenHolds busy (.rdLiveWord1 .ch0) = false := by decide
theorem witness_GateInOperatingModes :
    (∀ m ∈ ([1, 2, 3, 5] : List (BitVec 3)), ({ chan m 5 0 .lsb with gate := false } : Channel).mode = m) ∧
    (State.reset.ch .ch2).gate = false ∧ (State.reset.ch .ch2).mode = 3 ∧
    (chan 0 5 0 .lsb).mode = 0 ∧ (chan 4 5 0 .lsb).mode = 4 ∧ (chan 5 5 0 .lsb).mode.toNat ≤ 5 ∧
    (chan 5 5 0 .lsb).gate = true := by decide
theorem witness_GateRunsOrStops : Answers busy.params (busy.ch .ch0) ∧
    ¬ Answers refusing.params ({ refusing with ch0 := chan 6 5 0 .word }.ch .ch0) ∧ 1 < 2 ∧
    (∀ m ∈ ([6, 7] : List (BitVec 3)), ∀ g ∈ [true, false], ∀ k ∈ [Mode67.sourceDefaultArms, .aliased],
      ({ chan m 5 0 .lsb with gate := g } : Channel).mode = m ∧ ({ chan m 5 0 .lsb with gate := g } : Channel).gate = g ∧
      { resetParams with mode67 := k }.mode67 = k) :=
  ⟨answers_of_free .ch0 rfl, by simp [Answers, refusing, chan, OpMode.ofField], by decide, by decide⟩
theorem witness_GetterResults : (busy.ch .ch0).countLoadTime ≤ busy.clock ∧ Answers busy.params (busy.ch .ch0) :=
  ⟨by decide, answers_of_free .ch0 rfl⟩
theorem witness_ExpireResult :
    let s := { State.reset with clock := 27462700 }
    s.timer = some 27462700 ∧ 27462700 ≤ s.clock ∧ s.ch0.nextTransitionTime = some 27462700 ∧
    s.ch0.countLoadTime ≤ 27462700 ∧ ({ s with timer := none } : State).timer = none ∧
    ({ s with clock := 27462699 } : State).clock < 27462700 := by decide
theorem witness_ExpiryDeadlinesIncrease :
    ∃ t, exec .expire { State.reset with clock := 27462700 } = .next t ∧ t.timer = some 27462701 := ⟨_, rfl, by decide⟩
theorem witness_OnlyPassesMoveTheLine_runs :
    (∃ t, exec .expire { State.reset with clock := 27462700 } = .next t ∧ mayRunPass State.reset .expire = true) ∧
    (∃ t, exec (.gate .ch0 1) (put .ch0 { chan 1 500 3000 .word with gate := false } 1000000) = .next t) ∧
    mayRunPass (put .ch0 { chan 1 500 3000 .word with gate := false } 1000000) (.gate .ch0 1) = true :=
  ⟨⟨_, rfl, rfl⟩, ⟨_, rfl⟩, by decide⟩
theorem witness_OnlyPassesMoveTheLine :
    (∃ t, exec (.cwMode .ch0 .lsb 0 false) busy = .next t ∧ mayRunPass busy (.cwMode .ch0 .lsb 0 false) = false) ∧
    ∃ t, exec (.wrCntLsb .ch0 5) (put .ch0 (chan 2 5 0 .lsb) 9) = .next t ∧
      t.irq ≠ (put .ch0 (chan 2 5 0 .lsb) 9).irq := ⟨⟨_, rfl, by decide⟩, _, rfl, by decide⟩
theorem witness_ChannelsAreSeparate :
    (∃ t, exec (.gate .ch2 1) State.reset = .next t) ∧ ∃ t, exec (.gate .ch0 0) State.reset = .next t :=
  ⟨⟨_, rfl⟩, _, rfl⟩
theorem witness_GuestCannotMoveTheGate :
    Instr.onBus (.wrCntWord0 .ch0 7) = true ∧ ∃ t, exec (.wrCntWord0 .ch0 7) busy = .next t := ⟨rfl, _, rfl⟩
theorem witness_ParametersAndInputsAreKept : ∃ t, exec .reset State.reset = .next t := ⟨_, rfl⟩
/-- Two different states with one image: the line is not persisted. -/
theorem witness_PersistedImageKeepsEveryField :
    ∃ s t : State, s ≠ t ∧ s.Restorable ∧ t.Restorable ∧ s.params = t.params ∧ s.persisted = t.persisted ∧
      ∀ u : State, (u = s ∨ u = t) → ∀ c,
        (-(2 ^ 63) ≤ (u.ch c).countLoadTime ∧ (u.ch c).countLoadTime < 2 ^ 63) ∧
        (∀ h, (u.ch c).nextTransitionTime = some h →
          -(2 ^ 63) ≤ h ∧ h < 2 ^ 63 ∧ BitVec.ofInt 64 h ≠ u.params.noneEncoding) := by
  have h := reset_inv.restorable
  refine ⟨State.reset, { State.reset with irq := false }, by decide, h,
    ⟨h.ch0, h.ch1, h.ch2, h.timer_next⟩, rfl, rfl, ?_⟩
  rintro u (rfl | rfl) c <;> cases c <;> refine ⟨by decide, ?_⟩ <;> rintro h ⟨⟩ <;> decide
/-- A state that 10_state.md R27 admits and the operations of one machine do not reach: a programmed channel whose
sequencers belong to another access than `rw_mode` says, and a load time before T_INIT. -/
theorem witness_restorable_without_invariant :
    ∃ s : State, s.Restorable ∧ ¬ s.Inv :=
  ⟨{ State.reset with
      ch1 := { State.reset.ch1 with countLoadTime := -5, rwMode := 1, readState := .word1, writeState := .msb } },
    ⟨reset_inv.ch0.toRestorable, ⟨by decide, by decide, by decide, by decide, by decide, rfl⟩,
      reset_inv.ch2.toRestorable, .inr rfl⟩,
    fun h => absurd h.ch1.load_after_init (by decide)⟩
/-- States that 10_state.md R27 excludes: of `rw_mode`, `read_state` and `write_state` one is 0 and another is not. -/
theorem test_half_programmed_is_not_restorable :
    (¬ State.Restorable { State.reset with ch1 := { State.reset.ch1 with readState := .word1 } }) ∧
    (¬ State.Restorable { State.reset with ch1 := { State.reset.ch1 with writeState := .lsb } }) ∧
    ¬ State.Restorable { State.reset with ch1 := { State.reset.ch1 with rwMode := 3, readState := .word0 } } :=
  ⟨fun h => absurd h.ch1.read_programmed (by decide), fun h => absurd h.ch1.write_programmed (by decide),
    fun h => absurd h.ch1.write_programmed (by decide)⟩
/-- A version-1 restore may leave the timer cancelled, or armed, or armed by a pass. -/
theorem witness_restored_version1 :
    RestoredV1 State.reset.persistedV1 State.reset ∧
    RestoredV1 State.reset.persistedV1 { State.reset with timer := none } ∧
    ∃ s, schedulerPass State.reset State.reset.clock = .ok s ∧ RestoredV1 State.reset.persistedV1 s := by
  have h := reset_inv.restorable
  have hput : State.reset.ch1.nextTransitionTime = some 0 ∨ State.reset.ch1.nextTransitionTime = none := .inl rfl
  exact ⟨.inl ⟨⟨rfl, hput, .inl rfl⟩, h⟩, .inl ⟨⟨rfl, hput, .inl rfl⟩, h.ch0, h.ch1, h.ch2, .inl rfl⟩,
    _, rfl, .inr ⟨State.reset, ⟨rfl, hput, .inl rfl⟩, h, rfl⟩⟩
theorem witness_DecodeOfEncode :
    Instr.wellFormed (.rdLiveWord0 .ch0) = true ∧ Instr.onBus (.rdLiveWord0 .ch0) = true ∧
    whenHolds busy (.rdLiveWord0 .ch0) = true := by decide
theorem witness_EncodeOfDecode :
    (7 : Byte).toNat < 8 ∧ 8 ≤ (8 : Byte).toNat ∧ 8 ≤ (255 : Byte).toNat ∧ ([] : List Byte).length ≠ 2 ∧
    ([0, 0, 0] : List Byte).length ≠ 2 := by decide
theorem witness_ControlBytesAreSorted :
    0xC0 ≤ (0xC0 : Byte).toNat ∧ 0xC0 ≤ (0xFF : Byte).toNat ∧
    ((0x8F : Byte).toNat < 0xC0 ∧ (0x8F : Byte).toNat / 16 % 4 = 0) ∧
    ((0xBF : Byte).toNat < 0xC0 ∧ (0xBF : Byte).toNat / 16 % 4 ≠ 0) ∧ (0x10 : Byte).toNat / 16 % 4 ≠ 0 := by decide
theorem witness_StepRunsTheDecodedOperation :
    State.reset.inbox = [] ∧
    decode (transactionBytes true 3 0x34) = .ok (.cwMode .ch0 .word 2 false) ∧
    decode (transactionBytes false 0 0) = .ok (.rdCnt .ch0) := by decide
theorem witness_BadPortAccessStops :
    let p := State.reset.params
    (PortAccess.mk true 0x40 2 0).bytes ≠ 1 ∧ (PortAccess.mk true 0x3F 1 0).addr < p.ioBase ∧
    p.ioBase + 4 ≤ (PortAccess.mk true 0x44 1 0).addr := by decide
theorem witness_StepKeepsTheInvariant :
    ∃ t, step { State.reset with inbox := [⟨1000, .port ⟨true, 0x43, 1, 0x34⟩⟩] } = .next t := ⟨_, rfl⟩
theorem witness_StepKeepsTheInvariant_inv : State.Inv { State.reset with inbox := [⟨1000, .port ⟨true, 0x43, 1, 0x34⟩⟩] } :=
  ⟨reset_inv.ch0, reset_inv.ch1, reset_inv.ch2, reset_inv.timer_next⟩
theorem witness_InvariantAlongEveryRun :
    ∃ t, Host.Core.run Sys2Proof.core 2
      { State.constructed resetParams with inbox := [⟨1000, .port ⟨true, 0x43, 1, 0x34⟩⟩, ⟨5, .named .reset⟩] } =
      .next t := ⟨_, rfl⟩
theorem witness_InvariantAlongEveryRun_restored : RestoredV2 State.reset.persisted State.reset :=
  .inl ⟨⟨rfl, rfl, rfl, .inr rfl⟩, reset_inv.restorable⟩
/-- Both sides of the equivalence, under the spec's default settings: a live read of an unprogrammed channel is not
permitted, a latch of a channel in mode 3 and one in mode 6 with a count pending are. -/
theorem witness_EveryOperationRuns :
    mayRun State.reset (.rdCnt .ch0) ∧ mayRun { State.reset with clock := 27462700 } .expire ∧
    ¬ permitted refusing (.rdCnt .ch0) ∧ permitted refusing (.cwLatch .ch0) ∧
    permitted { refusing with ch0 := { chan 6 5 0 .word with countLatched := 3 } } (.cwLatch .ch0) := by
  refine ⟨⟨rfl, by decide, by decide, fun h => by cases h⟩,
    ⟨rfl, rfl, by decide, fun _ => ⟨27462700, rfl, by decide⟩⟩, fun h => h.2 rfl rfl, ⟨fun c hc => ?_, by decide⟩,
    ⟨fun c hc => ?_, by decide⟩⟩
  · exact .inl (by cases c <;> decide)
  · cases c <;> cases hc
/-- Under the spec's default settings, with every channel programmed in mode 2: the boundary offsets 3 and 2. -/
theorem witness_EveryBusAccessSteps :
    (3 < 4 ∧ (true = false → 3 ≠ 3)) ∧ (2 < 4 ∧ (false = false → 2 ≠ 3)) ∧
    ∀ c, OpMode.ofField (({ refusing with
        ch0 := chan 2 5 0 .lsb, ch1 := chan 2 5 0 .msb, ch2 := chan 2 5 0 .word } : State).ch c).mode ≠ none ∧
      (({ refusing with
        ch0 := chan 2 5 0 .lsb, ch1 := chan 2 5 0 .msb, ch2 := chan 2 5 0 .word } : State).ch c).rwMode ≠ 0 :=
  ⟨by decide, by decide, fun c => by cases c <;> decide⟩
theorem witness_EveryBusAccessSteps_inv : State.Inv
    { refusing with ch0 := { chan 2 5 0 .lsb with nextTransitionTime := some 27462700 }
                    ch1 := chan 2 5 0 .msb
                    ch2 := chan 2 5 0 .word } where
  ch0 := ⟨⟨by decide, by decide, by decide, by decide, by decide, rfl⟩, by decide, rfl, rfl, by decide⟩
  ch1 := ⟨⟨by decide, by decide, by decide, by decide, by decide, rfl⟩, by decide, rfl, rfl, by decide⟩
  ch2 := ⟨⟨by decide, by decide, by decide, by decide, by decide, rfl⟩, by decide, rfl, rfl, by decide⟩
  timer_next := by decide
/-- Channel 0 in mode 6, first with nothing latched, then with an armed and due timer. -/
theorem witness_Mode67OperationsAreRefused :
    let s : State := { refusing with ch0 := chan 6 5 0 .lsb, clock := 27462700 }
    s.params.mode67 = .refuse ∧ (s.ch .ch0).mode = 6 ∧ (s.ch .ch0).countLoadTime ≤ s.clock ∧
    (s.ch .ch0).countLatched = 0 ∧ readBoth.selects .ch0 = true ∧ readBoth.count = true ∧
    (s.ch .ch0).statusLatched = false ∧ liveView (s.ch .ch0) = true ∧ (s.ch .ch0).readState ≠ .unprogrammed ∧
    s.ch0.writeState ≠ .word0 ∧ s.ch0.writeState ≠ .unprogrammed ∧ s.timer = some 27462700 ∧
    ({ s.ch0 with nextTransitionTime := some 27462700 } : Channel).countLoadTime ≤ 27462700 := by decide

end Sys2Proof.Tests
end

section
/-! PROOFS. The time model in the six operating modes (40_time_model.md R81 to R95): the queries at the elapsed ticks of
their channel, the rows of the tables, and the obligations about them. -/

namespace Sys2Proof.Machine

/-! ### Elapsed ticks and operating modes -/

/-- The ticks elapsed at `t` since the channel's load, on signed times (40_time_model.md R81). -/
def ticksSince (x : Channel) (t : Int) : Nat := ((t - x.countLoadTime) * 1193182 / 1000000000).toNat

theorem timeToTicks_sinceLoad {x : Channel} {t : Int} (ht : x.countLoadTime ≤ t) :
    timeToTicks (t - x.countLoadTime).toNat = ticksSince x t := by
  simp only [timeToTicks, muldiv, ticksSince, Config.pitFreq, Config.ticksPerSec]
  omega

theorem ofField_of_le_five {f : BitVec 3} (h : f.toNat ≤ 5) : ∃ m, OpMode.ofField f = some m := by
  have hrow : ∀ g : BitVec 3, g.toNat ≤ 5 → (OpMode.ofField g).isSome = true := by decide
  exact Option.isSome_iff_exists.mp (hrow f h)

/-- The mode field determines the row: a row found for `f` is the row of the value that `f` has. -/
theorem ofField_unique {f g : BitVec 3} {m n : OpMode} (hf : OpMode.ofField f = some m) (hfg : f = g)
    (hg : OpMode.ofField g = some n) : m = n :=
  Option.some.inj (hf.symm.trans (hfg ▸ hg))

/-! ### The queries at the elapsed ticks -/

section
variable {p : Params} {x : Channel} {t : Int} {m : OpMode}

theorem getCount_eq_countAt (h : OpMode.ofField x.mode = some m) (ht : x.countLoadTime ≤ t) :
    getCount p x t = .ok (countAt m x.count (ticksSince x t)) :=
  timeToTicks_sinceLoad ht ▸ getCount_row h ht

theorem getOut_eq_outAt (h : OpMode.ofField x.mode = some m) (ht : x.countLoadTime ≤ t) :
    getOut p x t = .ok (outAt m x.count (ticksSince x t)) :=
  timeToTicks_sinceLoad ht ▸ getOut_row h ht

theorem nextTicks_eq_nextTicksAt (h : OpMode.ofField x.mode = some m) (ht : x.countLoadTime ≤ t) :
    nextTicks p x t = .ok (nextTicksAt m x.count (ticksSince x t)) :=
  timeToTicks_sinceLoad ht ▸ timeQuery_row _ _ _ h ht

end

/-! ### The counter value (R83 to R86) -/

/-- Modes 0, 1, 4 and 5 count down through zero, modulo 2^16 (R83). -/
theorem countAt_wrapping {m : OpMode} (h2 : m ≠ .mode2) (h3 : m ≠ .mode3) (count d : Nat) :
    (countAt m count d : Int) = ((count : Int) - d) % 65536 := by
  have hnonneg : 0 ≤ ((count : Int) - d) % 65536 := Int.emod_nonneg _ (by decide)
  cases m with
  | mode0 | mode1 | mode4 | mode5 => exact Int.toNat_of_nonneg hnonneg
  | mode2 => exact absurd rfl h2
  | mode3 => exact absurd rfl h3

theorem countAt_wrapping_le {m : OpMode} (h2 : m ≠ .mode2) (h3 : m ≠ .mode3) (count d : Nat) :
    countAt m count d ≤ 65535 := by
  have hval := countAt_wrapping h2 h3 count d
  omega

/-- The periodic modes reload before they reach zero: a count less a remainder by it lies in 1..count. -/
theorem sub_mod_range {count : Nat} (hc : 1 ≤ count) (k : Nat) : 1 ≤ count - k % count ∧ count - k % count ≤ count :=
  ⟨Nat.sub_pos_of_lt (Nat.mod_lt k hc), Nat.sub_le _ _⟩

theorem ofField_wrapping {f : BitVec 3} (h : f = 0 ∨ f = 1 ∨ f = 4 ∨ f = 5) :
    ∃ m, OpMode.ofField f = some m ∧ m ≠ .mode2 ∧ m ≠ .mode3 := by
  rcases h with rfl | rfl | rfl | rfl <;> exact ⟨_, rfl, by decide, by decide⟩

/-! ### The OUT level (R87 to R91) -/

section
variable (count d : Nat)

@[simp] theorem outAt_mode0 : outAt .mode0 count d = true ↔ count ≤ d := decide_eq_true_iff

@[simp] theorem outAt_mode1 : outAt .mode1 count d = true ↔ d < count := decide_eq_true_iff

@[simp] theorem outAt_mode2 : outAt .mode2 count d = true ↔ d % count = 0 ∧ d ≠ 0 := decide_eq_true_iff

@[simp] theorem outAt_mode3 : outAt .mode3 count d = true ↔ d % count < (count + 1) / 2 := decide_eq_true_iff

@[simp] theorem outAt_mode4 : outAt .mode4 count d = true ↔ d = count := decide_eq_true_iff

@[simp] theorem outAt_mode5 : outAt .mode5 count d = true ↔ d = count := decide_eq_true_iff

end

/-! ### The next transition (R92 to R95) -/

/-- Mode 2 always has a next transition (R93): the two branches of the row under one `some`. -/
theorem nextTicksAt_mode2 (count d : Nat) :
    nextTicksAt .mode2 count d =
      some (if d - d / count * count = 0 ∧ d ≠ 0 then d / count * count + count else d / count * count + count + 1) :=
  (apply_ite some _ _ _).symm

/-- Mode 3 always has a next transition (R94): the two branches of the row under one `some`. -/
theorem nextTicksAt_mode3 (count d : Nat) :
    nextTicksAt .mode3 count d =
      some (if d - d / count * count < (count + 1) / 2 then d / count * count + (count + 1) / 2
        else d / count * count + count) :=
  (apply_ite some _ _ _).symm

end Sys2Proof.Machine

namespace Sys2Proof.TimeModelProofs

open Sys2Proof.Machine

/-- Settles O4: the row of the mode at the elapsed ticks; the range is that of a residue modulo 2^16, or of a count less a
remainder by it. -/
theorem counterValue : Obligations.CounterValue := by
  intro p x t ht hc d
  refine ⟨fun hm => ?_, fun hm => ?_, fun hm => ?_⟩
  · obtain ⟨m, hr, h2, h3⟩ := ofField_wrapping hm
    exact ⟨_, getCount_eq_countAt hr ht, countAt_wrapping h2 h3 _ _, countAt_wrapping_le h2 h3 _ _⟩
  · have hr : OpMode.ofField x.mode = some .mode2 := hm ▸ rfl
    exact ⟨_, getCount_eq_countAt hr ht, rfl, sub_mod_range hc d⟩
  · have hr : OpMode.ofField x.mode = some .mode3 := hm ▸ rfl
    exact ⟨_, getCount_eq_countAt hr ht, rfl, sub_mod_range hc (2 * d)⟩

/-- Settles O5: a field up to 5 has a row, the answer is that row at the elapsed ticks, and each value of the field fixes
which row it is. -/
theorem outLevel : Obligations.OutLevel := by
  intro p x t ht hle d
  obtain ⟨m, hr⟩ := ofField_of_le_five hle
  refine ⟨outAt m x.count d, getOut_eq_outAt hr ht, fun hm => ?_, fun hm => ?_, fun hm => ?_, fun hm => ?_, ?_⟩
  · exact ofField_unique hr hm (n := .mode0) rfl ▸ outAt_mode0 x.count d
  · exact ofField_unique hr hm (n := .mode1) rfl ▸ outAt_mode1 x.count d
  · exact ofField_unique hr hm (n := .mode2) rfl ▸ outAt_mode2 x.count d
  · exact ofField_unique hr hm (n := .mode3) rfl ▸ outAt_mode3 x.count d
  · rintro (hm | hm)
    · exact ofField_unique hr hm (n := .mode4) rfl ▸ outAt_mode4 x.count d
    · exact ofField_unique hr hm (n := .mode5) rfl ▸ outAt_mode5 x.count d

/-- Settles O6: the row of the mode at the elapsed ticks. -/
theorem nextTicks : Obligations.NextTicks := by
  intro p x t ht d base half
  refine ⟨fun hm => ?_, fun hm => ?_, fun hm => ?_, fun hm => ?_⟩
  · rcases hm with hm | hm
    · exact nextTicks_eq_nextTicksAt (m := .mode0) (hm ▸ rfl) ht
    · exact nextTicks_eq_nextTicksAt (m := .mode1) (hm ▸ rfl) ht
  · rw [nextTicks_eq_nextTicksAt (m := .mode2) (hm ▸ rfl) ht, nextTicksAt_mode2]
    rfl
  · rw [nextTicks_eq_nextTicksAt (m := .mode3) (hm ▸ rfl) ht, nextTicksAt_mode3]
    rfl
  · rcases hm with hm | hm
    · exact nextTicks_eq_nextTicksAt (m := .mode4) (hm ▸ rfl) ht
    · exact nextTicks_eq_nextTicksAt (m := .mode5) (hm ▸ rfl) ht

end Sys2Proof.TimeModelProofs
end

section
/-! PROOFS. The mode command (41_control_word.md R101): its equation, and the obligation about it. -/

namespace Sys2Proof.Machine

theorem exec_cwMode (c : Chan) (a : Access) (mode : BitVec 3) (bcd : Bool) (s : State) :
    exec (.cwMode c a mode bcd) s = execCwMode c a mode bcd s := rfl

end Sys2Proof.Machine

namespace Sys2Proof.ControlWordProofs

open Sys2Proof.Machine

/-- Settles O15: the equation of the operation, whose access field and sequencers are those of R101 for each of the three
accesses. -/
theorem cwModeResult : Obligations.CwModeResult := by
  intro c a mode bcd s
  rw [exec_cwMode]
  cases a with
  | lsb | msb | word => rfl

end Sys2Proof.ControlWordProofs
end

section
/-! PROOFS. The counter port (42_counter_port.md R110 to R125): when each sub-form of an access goes on to a next state
and which one, the values of its bytes, and the obligations about them. -/

namespace Sys2Proof.Machine

/-! ### The values a transfer spells -/

/-- The two bytes of a word do not overlap, so that the disjunction of R115 is a sum. -/
theorem wordValue_eq_add (latch val : Byte) : wordValue latch val = latch.toNat + 256 * val.toNat := by
  calc latch.toNat ||| val.toNat <<< 8
      = val.toNat <<< 8 + latch.toNat := by rw [Nat.lor_comm, Nat.shiftLeft_add_eq_or_of_lt latch.isLt]
    _ = latch.toNat + 256 * val.toNat := by rw [Nat.shiftLeft_eq]; omega

theorem msbValue_eq_mul (val : Byte) : msbValue val = 256 * val.toNat := Nat.mul_comm _ _

theorem lowByte_eq_mod (n : Nat) : lowByte n = BitVec.ofNat 8 (n % 256) := by
  simp [lowByte, ← BitVec.toNat_inj]

theorem highByte_eq_div_mod (n : Nat) : highByte n = BitVec.ofNat 8 (n / 256 % 256) := by
  rw [← lowByte_eq_mod, highByte, Nat.shiftRight_eq_div_pow]
  rfl

theorem lowByte_toNat (x : BitVec 16) : lowByte x.toNat = x.extractLsb' 0 8 := rfl

theorem highByte_toNat (x : BitVec 16) : highByte x.toNat = x.extractLsb' 8 8 := rfl

/-! ### Which view a read takes (R117) -/

theorem latchView_iff {x : Channel} {k : BitVec 2} :
    latchView x k = true ↔ x.statusLatched = false ∧ x.countLatched = k := by
  simp [latchView]

theorem liveAt_iff {x : Channel} {q : Sequencer} :
    liveAt x q = true ↔ (x.statusLatched = false ∧ x.countLatched = 0) ∧ x.readState = q := by
  simp [liveAt, liveView]

/-! ### Each sub-form's next state -/

theorem answerWhen_ok_eq_next {b : Bool} {u t : State} : answerWhen b (.ok u) = .next t ↔ b = true ∧ u = t := by
  rw [answerWhen_eq_next, Except.ok.injEq]

section
variable {c : Chan} {val : Byte} {s t : State}

theorem exec_wrCntLsb_eq_next :
    exec (.wrCntLsb c val) s = .next t ↔ (s.ch c).writeState = .lsb ∧ load c (lsbValue val) s = .ok t :=
  answerWhen_eq_next.trans (and_congr_left' decide_eq_true_iff)

theorem exec_wrCntMsb_eq_next :
    exec (.wrCntMsb c val) s = .next t ↔ (s.ch c).writeState = .msb ∧ load c (msbValue val) s = .ok t :=
  answerWhen_eq_next.trans (and_congr_left' decide_eq_true_iff)

theorem exec_wrCntWord0_eq_next :
    exec (.wrCntWord0 c val) s = .next t ↔
      (s.ch c).writeState = .word0 ∧ s.setCh c { s.ch c with writeLatch := val, writeState := .word1 } = t :=
  answerWhen_ok_eq_next.trans (and_congr_left' decide_eq_true_iff)

/-- The Load comes first and the sequencer moves afterwards, in the state the Load left. -/
theorem exec_wrCntWord1_eq_next :
    exec (.wrCntWord1 c val) s = .next t ↔
      (s.ch c).writeState = .word1 ∧ ∃ u, load c (wordValue (s.ch c).writeLatch val) s = .ok u ∧
        u.setCh c { u.ch c with writeState := .word0 } = t := by
  refine answerWhen_eq_next.trans (and_congr decide_eq_true_iff ⟨map_ok, ?_⟩)
  rintro ⟨u, hu, rfl⟩
  rw [hu]
  rfl

theorem exec_rdStatus_eq_next :
    exec (.rdStatus c) s = .next t ↔
      (s.ch c).statusLatched = true ∧
        (s.setCh c { s.ch c with statusLatched := false }).returning (.byte (s.ch c).status) = t :=
  answerWhen_ok_eq_next

theorem exec_rdLatchLsb_eq_next :
    exec (.rdLatchLsb c) s = .next t ↔
      ((s.ch c).statusLatched = false ∧ (s.ch c).countLatched = 1) ∧ readLatched lowByte 0 c s = t :=
  answerWhen_ok_eq_next.trans (and_congr_left' latchView_iff)

theorem exec_rdLatchMsb_eq_next :
    exec (.rdLatchMsb c) s = .next t ↔
      ((s.ch c).statusLatched = false ∧ (s.ch c).countLatched = 2) ∧ readLatched highByte 0 c s = t :=
  answerWhen_ok_eq_next.trans (and_congr_left' latchView_iff)

theorem exec_rdLatchWord0_eq_next :
    exec (.rdLatchWord0 c) s = .next t ↔
      ((s.ch c).statusLatched = false ∧ (s.ch c).countLatched = 3) ∧ readLatched lowByte 2 c s = t :=
  answerWhen_ok_eq_next.trans (and_congr_left' latchView_iff)

theorem exec_rdLiveLsb_eq_next :
    exec (.rdLiveLsb c) s = .next t ↔
      (((s.ch c).statusLatched = false ∧ (s.ch c).countLatched = 0) ∧ (s.ch c).readState = .lsb) ∧
        readLive lowByte .lsb c s = .ok t :=
  answerWhen_eq_next.trans (and_congr_left' liveAt_iff)

theorem exec_rdLiveMsb_eq_next :
    exec (.rdLiveMsb c) s = .next t ↔
      (((s.ch c).statusLatched = false ∧ (s.ch c).countLatched = 0) ∧ (s.ch c).readState = .msb) ∧
        readLive highByte .msb c s = .ok t :=
  answerWhen_eq_next.trans (and_congr_left' liveAt_iff)

theorem exec_rdLiveWord0_eq_next :
    exec (.rdLiveWord0 c) s = .next t ↔
      (((s.ch c).statusLatched = false ∧ (s.ch c).countLatched = 0) ∧ (s.ch c).readState = .word0) ∧
        readLive lowByte .word1 c s = .ok t :=
  answerWhen_eq_next.trans (and_congr_left' liveAt_iff)

theorem exec_rdLiveWord1_eq_next :
    exec (.rdLiveWord1 c) s = .next t ↔
      (((s.ch c).statusLatched = false ∧ (s.ch c).countLatched = 0) ∧ (s.ch c).readState = .word1) ∧
        readLive highByte .word0 c s = .ok t :=
  answerWhen_eq_next.trans (and_congr_left' liveAt_iff)

end

/-! ### The shared operations of the sub-forms -/

/-- A Load on channel 0 that the time model answers ends in the pass of R140 at the time of the load. -/
theorem load_ch0_pass {s : State} (h : Answers s.params s.ch0) (v : Nat) :
    ∃ e b,
      nextTransition s.params { s.ch0 with count := countOfValue v, countLoadTime := s.clock } s.clock = .ok e ∧
      getOut s.params { s.ch0 with count := countOfValue v, countLoadTime := s.clock } s.clock = .ok b ∧
      load .ch0 v s =
        .ok { s with
          irq := b
          ch0 := { s.ch0 with count := countOfValue v, countLoadTime := s.clock, nextTransitionTime := e }
          timer := e } := by
  obtain ⟨u, hu⟩ := load_answers (c := .ch0) (v := v) fun _ => h
  obtain ⟨hne, -⟩ | ⟨-, e, b, he, hb, -⟩ := load_ok hu
  · exact absurd rfl hne
  · exact ⟨e, b, he, hb, load_ch0_of he hb⟩

/-- A live read of a byte form leaves the sequencer where it is, so that only the result changes (R122, R123). -/
theorem readLive_same {half : Nat → Byte} {q : Sequencer} {c : Chan} {s : State} {n : Nat}
    (hq : (s.ch c).readState = q) (hn : getCount s.params (s.ch c) s.clock = .ok n) :
    readLive half q c s = .ok (s.returning (.byte (half n))) := by
  subst hq
  rw [readLive_of hn]
  change Except.ok ((s.setCh c (s.ch c)).returning _) = _
  rw [State.setCh_ch]

end Sys2Proof.Machine

namespace Sys2Proof.CounterPortProofs

open Sys2Proof.Machine

/-- Settles O21: either form is a Load of its value, and a Load is known on both kinds of channel. -/
theorem wrCntByteResults : Obligations.WrCntByteResults := by
  intro c val s i n hans hform v
  have hexec : ∀ {t}, load c n s = .ok t → exec i s = .next t := by
    intro t ht
    rcases hform with ⟨rfl, hw, rfl⟩ | ⟨rfl, hw, rfl⟩
    · exact exec_wrCntLsb_eq_next.mpr ⟨hw, ht⟩
    · exact exec_wrCntMsb_eq_next.mpr ⟨hw, msbValue_eq_mul val ▸ ht⟩
  refine ⟨fun hc => hexec (load_ne hc n s), ?_⟩
  rintro rfl
  obtain ⟨e, b, he, hb, hload⟩ := load_ch0_pass (hans rfl) n
  exact ⟨e, b, he, hb, hexec hload⟩

/-- Settles O23: a Load of the two bytes' sum, then the sequencer's return to WORD0; the pass on channel 0 reads no
sequencer. -/
theorem wrCntWord1Result : Obligations.WrCntWord1Result := by
  intro c val s hw hans n v
  have hexec : ∀ {u}, load c n s = .ok u →
      exec (.wrCntWord1 c val) s = .next (u.setCh c { u.ch c with writeState := .word0 }) := fun hu =>
    exec_wrCntWord1_eq_next.mpr ⟨hw, _, wordValue_eq_add _ val ▸ hu, rfl⟩
  refine ⟨fun hc => ?_, ?_⟩
  · rw [hexec (load_ne hc n s), State.setCh_ch_self, State.setCh_setCh]
    rfl
  · rintro rfl
    obtain ⟨e, b, he, hb, hload⟩ := load_ch0_pass (hans rfl) n
    exact ⟨e, b, he, hb, hexec hload⟩

/-- Settles O28: `count_latched` selects the form, and the byte it returns is a slice of the snapshot. -/
theorem rdLatchResults : Obligations.RdLatchResults := by
  intro c s hst
  refine ⟨fun hk => ?_, fun hk => ?_, fun hk => ?_⟩
  · rw [← lowByte_toNat]
    exact exec_rdLatchLsb_eq_next.mpr ⟨⟨hst, hk⟩, rfl⟩
  · rw [← highByte_toNat]
    exact exec_rdLatchMsb_eq_next.mpr ⟨⟨hst, hk⟩, rfl⟩
  · rw [← lowByte_toNat]
    exact exec_rdLatchWord0_eq_next.mpr ⟨⟨hst, hk⟩, rfl⟩

/-- Settles O29: the count exists at the read's time, and each form returns its low or high byte. -/
theorem rdLiveResults : Obligations.RdLiveResults := by
  intro c s hst hk hload hans
  obtain ⟨n, hn⟩ := getCount_answers hans hload
  refine ⟨n, hn, fun hq => ?_, fun hq => ?_, fun hq => ?_, fun hq => ?_⟩
  · rw [← lowByte_eq_mod]
    exact exec_rdLiveLsb_eq_next.mpr ⟨⟨⟨hst, hk⟩, hq⟩, readLive_same hq hn⟩
  · rw [← highByte_eq_div_mod]
    exact exec_rdLiveMsb_eq_next.mpr ⟨⟨⟨hst, hk⟩, hq⟩, readLive_same hq hn⟩
  · rw [← lowByte_eq_mod]
    exact exec_rdLiveWord0_eq_next.mpr ⟨⟨⟨hst, hk⟩, hq⟩, readLive_of hn⟩
  · rw [← highByte_eq_div_mod]
    exact exec_rdLiveWord1_eq_next.mpr ⟨⟨⟨hst, hk⟩, hq⟩, readLive_of hn⟩

/-- Settles O22: the state that selects the form, and the form's two assignments. -/
theorem wrCntWord0Result : Obligations.WrCntWord0Result :=
  fun _ _ _ hw => exec_wrCntWord0_eq_next.mpr ⟨hw, rfl⟩

/-- Settles O27: the pending status selects the form, which returns it and clears the flag. -/
theorem rdStatusResult : Obligations.RdStatusResult :=
  fun _ _ hst => exec_rdStatus_eq_next.mpr ⟨hst, rfl⟩

end Sys2Proof.CounterPortProofs
end

section
/-! PROOFS. The HPET hook that takes channel 0 back (43_gate_and_api.md R137): the Load of 0 in mode 3, and the obligation
about the hook. -/

namespace Sys2Proof.Machine

theorem exec_hpetEnable (s : State) :
    exec .hpetEnable s = answer (load .ch0 0 { s with ch0 := { s.ch0 with mode := 3, gate := true } }) := rfl

/-- A Load of 0 on channel 0 in mode 3 always answers: the count is full, OUT is 1 at the load, and the deadline is the
edge 32768 ticks later (42_counter_port.md R110, 44_irq_scheduler.md R140). -/
theorem load_ch0_zero_mode3 {s : State} (hm : s.ch0.mode = 3) :
    load .ch0 0 s =
      .ok { s with
        irq := true
        ch0 := { s.ch0 with
          count := 65536, countLoadTime := s.clock, nextTransitionTime := some (s.clock + 27462700) }
        timer := some (s.clock + 27462700) } :=
  load_ch0_of (mode3_nextTransition hm rfl) (mode3_getOut hm rfl)

end Sys2Proof.Machine

namespace Sys2Proof.GateAndApiProofs

open Sys2Proof.Machine

/-- Settles O41: the hook sets mode 3 first, so that its Load of 0 answers in every state, whatever mode channel 0 was in
and whatever MODE67 says. -/
theorem hpetEnableResult : Obligations.HpetEnableResult := by
  intro s
  rw [exec_hpetEnable, answer_eq_next]
  exact load_ch0_zero_mode3 rfl

end Sys2Proof.GateAndApiProofs
end

section
/-! PROOFS. The encoding of bus transactions (30_encoding.md R60 to R67): the fields of a word as the decoder takes them
out, the decoder after the encoder and the encoder after the decoder, and the obligations about them. -/

namespace Sys2Proof

/-! ### Two-bit fields -/

theorem Chan.ofBits_eq_some {b : BitVec 2} {c : Chan} : Chan.ofBits b = some c ↔ c.toBits = b := by
  revert b
  cases c <;> decide

theorem Chan.ofBits_eq_none {b : BitVec 2} : Chan.ofBits b = none ↔ b = 3 := by
  revert b
  decide

@[simp] theorem Chan.ofBits_toBits (c : Chan) : Chan.ofBits c.toBits = some c := Chan.ofBits_eq_some.mpr rfl

theorem Access.ofBits_eq_some {b : BitVec 2} {a : Access} : Access.ofBits b = some a ↔ a.toBits = b := by
  revert b
  cases a <;> decide

theorem Access.ofBits_eq_none {b : BitVec 2} : Access.ofBits b = none ↔ b = 0 := by
  revert b
  decide

@[simp] theorem Access.ofBits_toBits (a : Access) : Access.ofBits a.toBits = some a := Access.ofBits_eq_some.mpr rfl

/-! ### The two bytes of a transaction -/

/-- The second byte of a transaction holds the direction and the offset and nothing else. -/
theorem transaction_high_fields (dir : Bool) (off : BitVec 2) :
    ((BitVec.ofBool dir ++ off).setWidth 8 : Byte).toNat < 8 ∧
      ((BitVec.ofBool dir ++ off).setWidth 8 : Byte).getLsbD 2 = dir ∧
      ((BitVec.ofBool dir ++ off).setWidth 8 : Byte).extractLsb' 0 2 = off := by
  revert dir off
  decide

theorem decode_transactionBytes (dir : Bool) (off : BitVec 2) (v : Byte) :
    decode (transactionBytes dir off v) = .ok (decodeTransaction dir off v) := by
  obtain ⟨hlt, hdir, hoff⟩ := transaction_high_fields dir off
  rw [transactionBytes, decode, if_pos hlt, hdir, hoff]

/-- Below 8 the second byte is its direction and its offset, so that packing them again gives it back. -/
theorem transactionBytes_fields {hi : Byte} (h : hi.toNat < 8) (lo : Byte) :
    transactionBytes (hi.getLsbD 2) (hi.extractLsb' 0 2) lo = [lo, hi] := by
  have hpack : ∀ b : Byte, b.toNat < 8 → (BitVec.ofBool (b.getLsbD 2) ++ b.extractLsb' 0 2).setWidth 8 = b := by decide
  rw [transactionBytes, hpack hi h]

theorem decode_pair {lo hi : Byte} (h : hi.toNat < 8) :
    decode [lo, hi] = .ok (decodeTransaction (hi.getLsbD 2) (hi.extractLsb' 0 2) lo) := if_pos h

/-! ### Control words -/

theorem modeWord_fields (sc rw : BitVec 2) (mode : BitVec 3) (bcd : Bool) :
    let v : Byte := sc ++ rw ++ mode ++ BitVec.ofBool bcd
    v.extractLsb' 6 2 = sc ∧ v.extractLsb' 4 2 = rw ∧ v.extractLsb' 1 3 = mode ∧ v.getLsbD 0 = bcd := by
  revert sc rw mode bcd
  decide

theorem decodeControl_modeByte (c : Chan) (a : Access) (mode : BitVec 3) (bcd : Bool) :
    decodeControl (modeByte c a mode bcd) = .cwMode c a mode bcd := by
  obtain ⟨hsc, hrw, hmode, hbcd⟩ := modeWord_fields c.toBits a.toBits mode bcd
  simp only [decodeControl, modeByte, hsc, hrw, hmode, hbcd, Chan.ofBits_toBits, Access.ofBits_toBits]

theorem decodeControl_latchByte (c : Chan) : decodeControl (latchByte c) = .cwLatch c := by
  cases c <;> rfl

theorem ReadBack.ofByte_toByte (r : ReadBack) : ReadBack.ofByte r.toByte = r := by
  obtain ⟨count, status, sel0, sel1, sel2⟩ := r
  revert count status sel0 sel1 sel2
  decide

/-- A read-back word has both `SC` bits set, which no channel has. -/
theorem decodeControl_readBack (r : ReadBack) : decodeControl r.toByte = .cwReadback r := by
  have hsc : ∀ c s a b d, Chan.ofBits ((⟨c, s, a, b, d⟩ : ReadBack).toByte.extractLsb' 6 2) = none := by decide
  simp only [decodeControl, hsc r.count r.status r.sel0 r.sel1 r.sel2, ReadBack.ofByte_toByte]

/-- The three forms of a control word, by its two-bit fields (R63). -/
theorem decodeControl_cases (v : Byte) :
    (v.extractLsb' 6 2 = 3 ∧ decodeControl v = .cwReadback (ReadBack.ofByte v)) ∨
    (∃ c, c.toBits = v.extractLsb' 6 2 ∧
      ((v.extractLsb' 4 2 = 0 ∧ decodeControl v = .cwLatch c) ∨
        ∃ a, a.toBits = v.extractLsb' 4 2 ∧ decodeControl v = .cwMode c a (v.extractLsb' 1 3) (v.getLsbD 0))) := by
  unfold decodeControl
  cases hc : Chan.ofBits (v.extractLsb' 6 2) with
  | none => exact .inl ⟨Chan.ofBits_eq_none.mp hc, rfl⟩
  | some c =>
    refine .inr ⟨c, Chan.ofBits_eq_some.mp hc, ?_⟩
    cases ha : Access.ofBits (v.extractLsb' 4 2) with
    | none => exact .inl ⟨Access.ofBits_eq_none.mp ha, rfl⟩
    | some a => exact .inr ⟨a, Access.ofBits_eq_some.mp ha, rfl⟩

/-- A control word is its four fields. -/
theorem modeByte_fields {v : Byte} {c : Chan} {a : Access} (hc : c.toBits = v.extractLsb' 6 2)
    (ha : a.toBits = v.extractLsb' 4 2) : modeByte c a (v.extractLsb' 1 3) (v.getLsbD 0) = v := by
  have hpack : ∀ b : Byte,
      (b.extractLsb' 6 2 ++ b.extractLsb' 4 2 ++ b.extractLsb' 1 3 ++ BitVec.ofBool (b.getLsbD 0) : BitVec 8) = b := by
    decide
  rw [modeByte, hc, ha]
  exact hpack v

/-! ### The four transactions -/

theorem decode_controlWrite (v : Byte) : decode (transactionBytes true 3 v) = .ok (decodeControl v) :=
  decode_transactionBytes true 3 v

theorem decode_counterWrite (c : Chan) (v : Byte) : decode (transactionBytes true c.toBits v) = .ok (.wrCnt c v) := by
  simp only [decode_transactionBytes, decodeTransaction, Chan.ofBits_toBits]

theorem decode_counterRead (c : Chan) (v : Byte) : decode (transactionBytes false c.toBits v) = .ok (.rdCnt c) := by
  simp only [decode_transactionBytes, decodeTransaction, Chan.ofBits_toBits]

/-- Every bus operation has an encoding, and the decoder reads it as the operation's generic form. -/
theorem decode_encode {i : Instr} (h : i.onBus = true) :
    ∃ bytes, encode i = some bytes ∧ decode bytes = .ok i.asDecoded := by
  cases i with
  | cwMode c a mode bcd => exact ⟨_, rfl, by rw [decode_controlWrite, decodeControl_modeByte]; rfl⟩
  | cwLatch c => exact ⟨_, rfl, by rw [decode_controlWrite, decodeControl_latchByte]; rfl⟩
  | cwReadback r => exact ⟨_, rfl, by rw [decode_controlWrite, decodeControl_readBack]; rfl⟩
  | wrCntLsb c v | wrCntMsb c v | wrCntWord0 c v | wrCntWord1 c v | wrCnt c v =>
    exact ⟨_, rfl, decode_counterWrite c v⟩
  | rdStatus c | rdLatchLsb c | rdLatchMsb c | rdLatchWord0 c | rdLiveLsb c | rdLiveMsb c | rdLiveWord0 c
  | rdLiveWord1 c | rdCnt c => exact ⟨_, rfl, decode_counterRead c 0⟩
  | rdCtrl => exact ⟨_, rfl, rfl⟩
  | gate | getGate | getCount | getMode | getOut | hpetDisable | hpetEnable | expire | reset => cases h

/-- What a transaction is decoded to: a counter access of its offset's channel, or at offset 3 the control word or the
read of the control port (R61). -/
theorem decodeTransaction_cases (dir : Bool) (off : BitVec 2) (v : Byte) :
    (∃ c, c.toBits = off ∧ ((dir = true ∧ decodeTransaction dir off v = .wrCnt c v) ∨
      (dir = false ∧ decodeTransaction dir off v = .rdCnt c))) ∨
    (off = 3 ∧ ((dir = true ∧ decodeTransaction dir off v = decodeControl v) ∨
      (dir = false ∧ decodeTransaction dir off v = .rdCtrl))) := by
  unfold decodeTransaction
  cases hoff : Chan.ofBits off with
  | some c =>
    refine .inl ⟨c, Chan.ofBits_eq_some.mp hoff, ?_⟩
    cases dir with
    | true => exact .inl ⟨rfl, rfl⟩
    | false => exact .inr ⟨rfl, rfl⟩
  | none =>
    refine .inr ⟨Chan.ofBits_eq_none.mp hoff, ?_⟩
    cases dir with
    | true => exact .inl ⟨rfl, rfl⟩
    | false => exact .inr ⟨rfl, rfl⟩

/-- A decoded control word is a bus operation and its own decoded form. -/
theorem decodeControl_onBus (v : Byte) : (decodeControl v).onBus = true ∧ (decodeControl v).asDecoded = decodeControl v := by
  obtain ⟨-, h⟩ | ⟨c, -, ⟨-, h⟩ | ⟨a, -, h⟩⟩ := decodeControl_cases v <;> rw [h] <;> exact ⟨rfl, rfl⟩

/-- Whatever a transaction decodes to is a bus operation and its own decoded form. -/
theorem decodeTransaction_onBus (dir : Bool) (off : BitVec 2) (v : Byte) :
    (decodeTransaction dir off v).onBus = true ∧
      (decodeTransaction dir off v).asDecoded = decodeTransaction dir off v := by
  obtain ⟨c, -, ⟨-, h⟩ | ⟨-, h⟩⟩ | ⟨-, ⟨-, h⟩ | ⟨-, h⟩⟩ := decodeTransaction_cases dir off v
  · rw [h]; exact ⟨rfl, rfl⟩
  · rw [h]; exact ⟨rfl, rfl⟩
  · rw [h]; exact decodeControl_onBus v
  · rw [h]; exact ⟨rfl, rfl⟩

/-- Counter writes and mode words have no don't-care bit: the encoder gives the transaction back. -/
theorem encode_decodeTransaction {dir : Bool} {off : BitVec 2} {v : Byte} {i : Instr}
    (hi : decodeTransaction dir off v = i) (hctrl : i ≠ .rdCtrl) (hread : ∀ c, i ≠ .rdCnt c)
    (hlatch : ∀ c, i ≠ .cwLatch c) (hback : ∀ r, i ≠ .cwReadback r) :
    encode i = some (transactionBytes dir off v) := by
  subst hi
  obtain ⟨c, rfl, ⟨rfl, h⟩ | ⟨-, h⟩⟩ | ⟨rfl, ⟨rfl, h⟩ | ⟨-, h⟩⟩ := decodeTransaction_cases dir off v
  · rw [h]; rfl
  · exact absurd h (hread c)
  · obtain ⟨-, hv⟩ | ⟨c, hc, ⟨-, hv⟩ | ⟨a, ha, hv⟩⟩ := decodeControl_cases v
    · exact absurd (h.trans hv) (hback _)
    · exact absurd (h.trans hv) (hlatch c)
    · rw [h, hv, encode, modeByte_fields hc ha]
  · exact absurd h hctrl

theorem decode_of_length {bytes : List Byte} (h : bytes.length ≠ 2) : decode bytes = .error .length := by
  match bytes with
  | [] | [_] | _ :: _ :: _ :: _ => rfl
  | [_, _] => exact absurd rfl h

/-! ### The bits of a control byte as numbers -/

theorem getLsbD_eq_decide (v : Byte) (k : Nat) : v.getLsbD k = decide (v.toNat / 2 ^ k % 2 = 1) :=
  Nat.testBit_eq_decide_div_mod_eq

theorem extractLsb'_two_toNat (v : Byte) (start : Nat) : (v.extractLsb' start 2).toNat = v.toNat / 2 ^ start % 4 := by
  rw [BitVec.extractLsb'_toNat, Nat.shiftRight_eq_div_pow]

/-- The two bits of the channel are the top ones, so that nothing lies above them. -/
theorem channelField_toNat (v : Byte) : (v.extractLsb' 6 2).toNat = v.toNat / 64 := by
  have hlt := v.isLt
  rw [extractLsb'_two_toNat]
  omega

theorem accessField_toNat (v : Byte) : (v.extractLsb' 4 2).toNat = v.toNat / 16 % 4 := extractLsb'_two_toNat v 4

theorem modeField_eq (v : Byte) : v.extractLsb' 1 3 = BitVec.ofNat 3 (v.toNat / 2) := by
  rw [← BitVec.toNat_inj, BitVec.extractLsb'_toNat, Nat.shiftRight_eq_div_pow, BitVec.toNat_ofNat]

theorem ReadBack.ofByte_eq (v : Byte) :
    ReadBack.ofByte v =
      { count := decide (v.toNat / 32 % 2 = 0)
        status := decide (v.toNat / 16 % 2 = 0)
        sel0 := decide (v.toNat / 2 % 2 = 1)
        sel1 := decide (v.toNat / 4 % 2 = 1)
        sel2 := decide (v.toNat / 8 % 2 = 1) } := by
  simp only [ReadBack.ofByte, getLsbD_eq_decide, ← decide_not, ← ne_eq, Nat.mod_two_ne_one, Nat.reducePow]

theorem Chan.toBits_toNat_lt (c : Chan) : c.toBits.toNat < 3 := by
  cases c <;> decide

theorem Access.toBits_toNat_ne (a : Access) : a.toBits.toNat ≠ 0 := by
  cases a <;> decide

end Sys2Proof

namespace Sys2Proof.Machine

/-! ### The sub-form a state selects -/

/-- A row of the table whose condition holds is the one the state selects: the write sequencer has one value, and a read
takes the first of status, latch and live view (42_counter_port.md R111, R117). -/
theorem select_of_whenHolds {s : State} {i : Instr} (h : whenHolds s i = true) : select s i.asDecoded = i := by
  cases i with
  | wrCntLsb c v | wrCntMsb c v | wrCntWord0 c v | wrCntWord1 c v | wrCnt c v =>
    have hw := of_decide_eq_true h
    simp only [Instr.asDecoded, select, selectWrite, hw]
  | rdStatus c => exact if_pos h
  | rdLatchLsb c | rdLatchMsb c | rdLatchWord0 c =>
    obtain ⟨hst, hk⟩ := latchView_iff.mp h
    simp [Instr.asDecoded, select, selectRead, hst, hk]
  | rdLiveLsb c | rdLiveMsb c | rdLiveWord0 c | rdLiveWord1 c | rdCnt c =>
    obtain ⟨⟨hst, hk⟩, hq⟩ := liveAt_iff.mp h
    simp [Instr.asDecoded, select, selectRead, selectLive, hst, hk, hq]
  | cwMode | cwLatch | cwReadback | rdCtrl | gate | getGate | getCount | getMode | getOut | hpetDisable | hpetEnable
  | expire | reset => rfl

end Sys2Proof.Machine

namespace Sys2Proof.EncodingProofs

open Sys2Proof.Machine

/-- Settles O49: each of the four kinds of transaction decodes to the generic form of what it was packed from, and the
state's selection gives the sub-form back. -/
theorem decodeOfEncode : Obligations.DecodeOfEncode := by
  intro i _ hbus
  obtain ⟨bytes, henc, hdec⟩ := decode_encode hbus
  exact ⟨bytes, henc, hdec, fun _ h => select_of_whenHolds h⟩

/-- Settles O50: below 8 the bytes are a transaction, whose operation has an encoding that decodes to it. -/
theorem encodeOfDecode : Obligations.EncodeOfDecode := by
  refine ⟨fun lo hi h => ?_, fun lo hi h => if_neg (Nat.not_lt.mpr h), fun _ => decode_of_length⟩
  obtain ⟨hbus, hself⟩ := decodeTransaction_onBus (hi.getLsbD 2) (hi.extractLsb' 0 2) lo
  obtain ⟨bytes, henc, hdec⟩ := decode_encode hbus
  refine ⟨_, bytes, decode_pair h, hbus, hself, henc, hdec.trans (congrArg _ hself), fun h1 h2 h3 h4 => ?_⟩
  have hsame := henc.symm.trans (encode_decodeTransaction rfl h1 h2 h3 h4)
  rw [Option.some.inj hsame, transactionBytes_fields h]

/-- Settles O51: an evaluation of the decoder on the six words. -/
theorem specWordsDecode : Obligations.SpecWordsDecode := by
  unfold Obligations.SpecWordsDecode
  decide

/-- Settles O52: the form of a control word goes by its two-bit fields, which are the quotients of the statement; the
counts are an evaluation of the decoder on the 256 bytes. -/
theorem controlBytesAreSorted : Obligations.ControlBytesAreSorted := by
  refine ⟨fun v => ?_, ?_⟩
  · have hsc := channelField_toNat v
    have hrw := accessField_toNat v
    obtain ⟨h3, hv⟩ | ⟨c, hc, hcase⟩ := decodeControl_cases v
    · have hge : v.toNat / 64 = 3 := hsc ▸ congrArg BitVec.toNat h3
      exact ⟨fun _ => hv.trans (congrArg _ (ReadBack.ofByte_eq v)), fun hlt => by omega, fun hlt => by omega⟩
    · have hlt := c.toBits_toNat_lt
      rw [← hc] at hsc
      refine ⟨fun hge => by omega, fun _ hzero => ?_, fun _ hne => ?_⟩
      · obtain ⟨-, hv⟩ | ⟨a, ha, -⟩ := hcase
        · exact ⟨c, hsc, hv⟩
        · exact absurd (ha ▸ hrw.trans hzero) a.toBits_toNat_ne
      · obtain ⟨h0, -⟩ | ⟨a, ha, hv⟩ := hcase
        · rw [h0] at hrw
          exact absurd hrw.symm hne
        · refine ⟨c, a, hsc, ha ▸ hrw, ?_⟩
          rw [hv, modeField_eq, getLsbD_eq_decide, pow_zero, Nat.div_one]
  · rintro _ rfl
    decide +kernel

end Sys2Proof.EncodingProofs
end

section
/-! PROOFS. When an operation goes on to a next state, and which one: the operations of the control port, the two accesses
of an unprogrammed channel, the gate, the getters, the expiry and the reset. -/

namespace Sys2Proof.Machine

/-! ### Sequencing answers and replacing channels -/

theorem bind_eq_ok {α β : Type} {k : Except Refusal α} {f : α → Except Refusal β} {b : β} :
    k.bind f = .ok b ↔ ∃ a, k = .ok a ∧ f a = .ok b :=
  ⟨bind_ok, by rintro ⟨a, rfl, h⟩; exact h⟩

theorem map_eq_ok {α β : Type} {k : Except Refusal α} {f : α → β} {b : β} :
    k.map f = .ok b ↔ ∃ a, k = .ok a ∧ f a = b :=
  ⟨map_ok, by rintro ⟨a, rfl, rfl⟩; rfl⟩

/-- The state with every channel replaced. -/
def State.withChannels (s : State) (y : Chan → Channel) : State :=
  { s with ch0 := y .ch0, ch1 := y .ch1, ch2 := y .ch2 }

@[simp] theorem State.withChannels_ch (s : State) (y : Chan → Channel) (c : Chan) : (s.withChannels y).ch c = y c := by
  cases c <;> rfl

theorem State.setCh_eq_withChannels (s : State) (c : Chan) (x : Channel) :
    s.setCh c x = s.withChannels (Function.update s.ch c x) := by
  cases c <;> rfl

/-! ### The read-back of one channel (41_control_word.md R103) -/

/-- What a read-back stores in a channel it selects, given the count and OUT at its time: the snapshot where the count is
asked for and none is pending, the status byte where the status is asked for and none is pending. -/
def latchedChannel (r : ReadBack) (x : Channel) (n : Nat) (o : Bool) : Channel :=
  { x with
    latchedCount := if r.count = true ∧ x.countLatched = 0 then BitVec.ofNat 16 n else x.latchedCount
    countLatched := if r.count = true ∧ x.countLatched = 0 then x.rwMode else x.countLatched
    status := if r.status = true ∧ x.statusLatched = false then statusByte o x.rwMode x.mode x.bcd else x.status
    statusLatched := x.statusLatched || r.status }

section
variable {p : Params} {r : ReadBack} {x y : Channel} {now : Int}

theorem readBackChannel_unselected : readBackChannel p r false x now = .ok y ↔ x = y := by
  simp [readBackChannel]

theorem readBack_countPart :
    (if r.count then latchCount p x now else .ok x) = .ok y ↔
      ∃ n, (r.count = true → x.countLatched = 0 → getCount p x now = .ok n) ∧
        { x with
          latchedCount := if r.count = true ∧ x.countLatched = 0 then BitVec.ofNat 16 n else x.latchedCount
          countLatched := if r.count = true ∧ x.countLatched = 0 then x.rwMode else x.countLatched } = y := by
  cases hc : r.count with
  | false => simp
  | true =>
    by_cases hk : x.countLatched = 0#2
    · simp [latchCount, hk, map_eq_ok, snapshot]
    · simp [latchCount, hk]

theorem readBack_statusPart :
    (if r.status then latchStatus p x now else .ok x) = .ok y ↔
      ∃ o, (r.status = true → x.statusLatched = false → getOut p x now = .ok o) ∧
        { x with
          status := if r.status = true ∧ x.statusLatched = false then statusByte o x.rwMode x.mode x.bcd else x.status
          statusLatched := x.statusLatched || r.status } = y := by
  cases hs : r.status with
  | false => simp
  | true =>
    cases hk : x.statusLatched with
    | false => simp [latchStatus, hk, map_eq_ok]
    | true =>
      have hx : { x with statusLatched := true } = x := hk ▸ rfl
      simp [latchStatus, hk, hx]

/-- The count part keeps what the status part reads, so that both read the channel as it was. -/
theorem readBackChannel_selected :
    readBackChannel p r true x now = .ok y ↔
      ∃ n o, (r.count = true → x.countLatched = 0 → getCount p x now = .ok n) ∧
        (r.status = true → x.statusLatched = false → getOut p x now = .ok o) ∧ latchedChannel r x n o = y := by
  rw [readBackChannel, if_pos rfl, bind_eq_ok]
  constructor
  · rintro ⟨z, hz, hy⟩
    obtain ⟨n, hn, rfl⟩ := readBack_countPart.mp hz
    obtain ⟨o, ho, rfl⟩ := readBack_statusPart.mp hy
    exact ⟨n, o, hn, ho, rfl⟩
  · rintro ⟨n, o, hn, ho, rfl⟩
    exact ⟨_, readBack_countPart.mpr ⟨n, hn, rfl⟩, readBack_statusPart.mpr ⟨o, ho, rfl⟩⟩

end

/-! ### Each operation's next state -/

theorem updateChannel_eq_ok {c : Chan} {f : Channel → Except Refusal Channel} {s t : State} :
    updateChannel c f s = .ok t ↔ ∃ y, f (s.ch c) = .ok y ∧ s.setCh c y = t := map_eq_ok

section
variable {c : Chan} {val : Byte} {s t : State}

theorem exec_cwLatch_eq_next :
    exec (.cwLatch c) s = .next t ↔ ∃ y, latchCount s.params (s.ch c) s.clock = .ok y ∧ s.setCh c y = t :=
  answer_eq_next.trans updateChannel_eq_ok

theorem readBackOne_eq_ok {r : ReadBack} :
    readBackOne r c s = .ok t ↔
      ∃ y, readBackChannel s.params r (r.selects c) (s.ch c) s.clock = .ok y ∧ s.setCh c y = t := updateChannel_eq_ok

/-- The three turns of the loop touch a channel each, and none what another one reads. -/
theorem exec_cwReadback_eq_next {r : ReadBack} :
    exec (.cwReadback r) s = .next t ↔
      (∀ c, readBackChannel s.params r (r.selects c) (s.ch c) s.clock = .ok (t.ch c)) ∧ s.withChannels t.ch = t := by
  refine answer_eq_next.trans ⟨fun h => ?_, fun ⟨h, ht⟩ => ?_⟩
  · obtain ⟨s2, h2, h⟩ := bind_eq_ok.mp h
    obtain ⟨s1, h1, h2⟩ := bind_eq_ok.mp h2
    obtain ⟨y0, h0, rfl⟩ := readBackOne_eq_ok.mp h1
    obtain ⟨y1, h1, rfl⟩ := readBackOne_eq_ok.mp h2
    obtain ⟨y2, h2, rfl⟩ := readBackOne_eq_ok.mp h
    exact ⟨fun c => by cases c <;> assumption, rfl⟩
  · have h0 := readBackOne_eq_ok.mpr ⟨_, h .ch0, rfl⟩
    have h1 := readBackOne_eq_ok.mpr ⟨_, h .ch1, rfl⟩
    have h2 := readBackOne_eq_ok.mpr ⟨_, h .ch2, rfl⟩
    refine bind_eq_ok.mpr ⟨_, bind_eq_ok.mpr ⟨_, h0, readBackOne_eq_ok.mpr ⟨t.ch1, h .ch1, rfl⟩⟩, ?_⟩
    exact readBackOne_eq_ok.mpr ⟨t.ch2, h .ch2, ht⟩

theorem exec_wrCnt_eq_next :
    exec (.wrCnt c val) s = .next t ↔
      (s.ch c).writeState = .unprogrammed ∧ s.params.unprog = .asLsb ∧ load c (lsbValue val) s = .ok t := by
  refine answerWhen_eq_next.trans (and_congr decide_eq_true_iff ?_)
  cases s.params.unprog <;> simp

theorem exec_rdCnt_eq_next :
    exec (.rdCnt c) s = .next t ↔
      (((s.ch c).statusLatched = false ∧ (s.ch c).countLatched = 0) ∧ (s.ch c).readState = .unprogrammed) ∧
        s.params.unprog = .asLsb ∧ readLive lowByte .unprogrammed c s = .ok t := by
  refine answerWhen_eq_next.trans (and_congr liveAt_iff ?_)
  cases s.params.unprog <;> simp

theorem levelBit_eq_some {level : Nat} {b : Bool} :
    levelBit level = some b ↔ level ≤ 1 ∧ b = decide (level = 1) := by
  match level with
  | 0 | 1 => simp [levelBit, eq_comm]
  | k + 2 => simp [levelBit]

/-- The reload comes first and the level is stored in the state it left. -/
theorem exec_gate_eq_next {level : Nat} :
    exec (.gate c level) s = .next t ↔
      level ≤ 1 ∧ ∃ reload, gateReloads s.params (s.ch c) (decide (level = 1)) = .ok reload ∧
        ∃ u, (if reload then gateReload c s else .ok s) = .ok u ∧ storeGate c (decide (level = 1)) u = t := by
  change execGate c level s = .next t ↔ _
  unfold execGate
  cases hb : levelBit level with
  | none =>
    have hlevel : ¬ level ≤ 1 := fun h => by simpa [hb] using levelBit_eq_some.mpr ⟨h, rfl⟩
    simp [hlevel]
  | some new =>
    obtain ⟨hlevel, rfl⟩ := levelBit_eq_some.mp hb
    simp only [answer_eq_next, map_eq_ok, bind_eq_ok, hlevel, true_and]
    exact ⟨fun ⟨u, ⟨reload, hr, hu⟩, ht⟩ => ⟨reload, hr, u, hu, ht⟩,
      fun ⟨reload, hr, u, hu, ht⟩ => ⟨u, ⟨reload, hr, hu⟩, ht⟩⟩

theorem exec_getOut_eq_next :
    exec (.getOut c) s = .next t ↔
      ∃ b, getOut s.params (s.ch c) s.clock = .ok b ∧ s.returning (.out b) = t :=
  answer_eq_next.trans map_eq_ok

theorem exec_expire_eq_next :
    exec .expire s = .next t ↔
      ∃ deadline now, s.timer = some deadline ∧ s.ch0.nextTransitionTime = some now ∧ deadline ≤ s.clock ∧
        schedulerPass s now = .ok t := by
  change execExpire s = .next t ↔ _
  unfold execExpire
  cases s.timer with
  | none => simp
  | some deadline =>
    cases s.ch0.nextTransitionTime with
    | none => simp
    | some now => by_cases hdue : deadline ≤ s.clock <;> simp [hdue]

end

section
variable (c : Chan) (s : State)

theorem exec_getGate : exec (.getGate c) s = .next (s.returning (.gate (s.ch c).gate)) := rfl

theorem exec_getCount : exec (.getCount c) s = .next (s.returning (.count (s.ch c).count)) := rfl

theorem exec_getMode : exec (.getMode c) s = .next (s.returning (.mode (s.ch c).mode)) := rfl

theorem exec_hpetDisable : exec .hpetDisable s = .next { s with timer := none } := rfl

theorem exec_rdCtrl : exec .rdCtrl s = .refused .controlPortRead := rfl

/-- A channel after its turn of a reset, but for the next transition time. -/
def reloadedChannel (x : Channel) : Channel :=
  { resetChannel c x with count := 65536, countLoadTime := s.clock }

/-- The channels after a reset: only the turn of channel 0 has a pass (70_reset_and_hazards.md R171). -/
def resetChannels : Chan → Channel
  | .ch0 => { reloadedChannel .ch0 s s.ch0 with nextTransitionTime := some (s.clock + 27462700) }
  | .ch1 => reloadedChannel .ch1 s s.ch1
  | .ch2 => reloadedChannel .ch2 s s.ch2

/-- A reset always answers: each turn sets mode 3 before its Load of 0. -/
theorem exec_reset :
    exec .reset s =
      .next { s.withChannels (resetChannels s) with irq := true, timer := some (s.clock + 27462700) } := by
  refine answer_eq_next.mpr (bind_eq_ok.mpr ⟨_, bind_eq_ok.mpr ⟨_, resetOne_ch0 _, resetOne_ne (by decide) _⟩, ?_⟩)
  exact resetOne_ne (by decide) _

end

end Sys2Proof.Machine
end

section
/-! PROOFS. What an operation can do at all, said once: it edits channels without a pass, or edits one channel and
reschedules it, or cancels the timer, or resets the block. -/

namespace Sys2Proof.Machine

/-! ### Changes of a channel that keep its invariant -/

/-- `y` meets the invariant, and R27 alone, wherever `x` does. -/
structure Channel.Keeps (now : Int) (x y : Channel) : Prop where
  inv : ∀ tInit, x.Inv tInit now → y.Inv tInit now
  restorable : x.Restorable now → y.Restorable now

theorem Channel.Keeps.refl (now : Int) (x : Channel) : x.Keeps now x := ⟨fun _ h => h, fun h => h⟩

/-- A sequencer that stays with its access stays unprogrammed or programmed. -/
theorem Sequencer.unprogrammed_iff_of_access {q r : Sequencer} (h : q.access = r.access) :
    q = .unprogrammed ↔ r = .unprogrammed := by
  rw [← Sequencer.access_eq_zero, h, Sequencer.access_eq_zero]

/-- The changes operations make between two programmings: the count stays in range, the load time stays or becomes the
present time, the sequencers stay with their access, and a count latch becomes pending only as `rw_mode` says. -/
theorem Channel.keeps_of {x y : Channel} {now : Int}
    (hcount : y.count = x.count ∨ (1 ≤ y.count ∧ y.count ≤ 65536) := by exact .inl rfl)
    (hload : y.countLoadTime = x.countLoadTime ∨ y.countLoadTime = now := by exact .inl rfl)
    (hrw : y.rwMode = x.rwMode := by rfl)
    (hread : y.readState.access = x.readState.access := by rfl)
    (hwrite : y.writeState.access = x.writeState.access := by rfl)
    (hlatch : y.countLatched = x.countLatched ∨ y.countLatched = x.rwMode ∨ x.countLatched ≠ 0 := by exact .inl rfl)
    (hstatus : y.status = x.status ∨ y.status.getLsbD 6 = false := by exact .inl rfl) : x.Keeps now y := by
  have hrest : x.Restorable now → y.Restorable now := fun h =>
    { count_pos := hcount.elim (· ▸ h.count_pos) And.left
      count_le := hcount.elim (· ▸ h.count_le) And.right
      load_past := hload.elim (· ▸ h.load_past) le_of_eq
      read_programmed := hrw ▸ (Sequencer.unprogrammed_iff_of_access hread).trans h.read_programmed
      write_programmed := hrw ▸ (Sequencer.unprogrammed_iff_of_access hwrite).trans h.write_programmed
      status_bit6 := hstatus.elim (· ▸ h.status_bit6) id }
  refine ⟨fun tInit h => ?_, hrest⟩
  exact
    { toRestorable := hrest h.toRestorable
      load_after_init := hload.elim (· ▸ h.load_after_init) (· ▸ h.load_after_init.trans h.load_past)
      read_access := hread.trans (h.read_access.trans hrw.symm)
      write_access := hwrite.trans (h.write_access.trans hrw.symm)
      unprogrammed_unlatched := fun hzero => by
        have hx := h.unprogrammed_unlatched (hrw ▸ hzero)
        rcases hlatch with hk | hk | hk
        · exact hk.trans hx
        · exact hk.trans (hrw ▸ hzero)
        · exact absurd hx hk }

/-- A channel as `CW.MODE` leaves it (41_control_word.md R101). -/
def programmedChannel (a : Access) (mode : BitVec 3) (bcd : Bool) (x : Channel) : Channel :=
  { x with
    rwMode := a.toBits
    readState := Sequencer.ofAccess a
    writeState := Sequencer.ofAccess a
    mode := mode
    bcd := bcd }

theorem Sequencer.ofAccess_access (a : Access) : (Sequencer.ofAccess a).access = a.toBits := by
  cases a <;> rfl

theorem keeps_programmedChannel (a : Access) (mode : BitVec 3) (bcd : Bool) (x : Channel) (now : Int) :
    x.Keeps now (programmedChannel a mode bcd x) := by
  have hprog : Sequencer.ofAccess a = .unprogrammed ↔ a.toBits = 0#2 :=
    iff_of_false (Sequencer.ofAccess_ne_unprogrammed a) (Access.toBits_ne_zero a)
  have hrest : x.Restorable now → (programmedChannel a mode bcd x).Restorable now := fun h =>
    { h with read_programmed := hprog, write_programmed := hprog }
  exact ⟨fun tInit h =>
    { toRestorable := hrest h.toRestorable
      load_after_init := h.load_after_init
      read_access := Sequencer.ofAccess_access a
      write_access := Sequencer.ofAccess_access a
      unprogrammed_unlatched := fun hzero => absurd hzero (Access.toBits_ne_zero a) }, hrest⟩

/-- The mode lies below bit 4 and the access below bit 6 (30_encoding.md R66). -/
theorem statusByte_bit6 (o : Bool) (rw : BitVec 2) (mode : BitVec 3) (bcd : Bool) :
    (statusByte o rw mode bcd).getLsbD 6 = false := by
  revert o rw mode bcd
  decide

theorem keeps_latchedChannel (r : ReadBack) (x : Channel) (n : Nat) (o : Bool) (now : Int) :
    x.Keeps now (latchedChannel r x n o) := by
  refine Channel.keeps_of (hlatch := ?_) (hstatus := ?_)
  · by_cases h : r.count = true ∧ x.countLatched = 0
    · exact .inr (.inl (if_pos h))
    · exact .inl (if_neg h)
  · by_cases h : r.status = true ∧ x.statusLatched = false
    · have hst : (latchedChannel r x n o).status = statusByte o x.rwMode x.mode x.bcd := if_pos h
      exact .inr (by rw [hst]; exact statusByte_bit6 _ _ _ _)
    · exact .inl (if_neg h)

/-- A reset unprograms the channel and drops its latches, so that only the count, the load time and the status are left to
the invariant. -/
theorem keeps_reloadedChannel (c : Chan) (s : State) (x : Channel) : x.Keeps s.clock (reloadedChannel c s x) := by
  have hrest : x.Restorable s.clock → (reloadedChannel c s x).Restorable s.clock := fun h =>
    { count_pos := (by decide : 1 ≤ 65536)
      count_le := le_refl 65536
      load_past := le_refl s.clock
      read_programmed := iff_of_true rfl rfl
      write_programmed := iff_of_true rfl rfl
      status_bit6 := h.status_bit6 }
  exact ⟨fun tInit h =>
    { toRestorable := hrest h.toRestorable
      load_after_init := h.load_after_init.trans h.load_past
      read_access := rfl
      write_access := rfl
      unprogrammed_unlatched := fun _ => rfl }, hrest⟩

theorem Channel.Keeps.trans {now : Int} {x y z : Channel} (h : x.Keeps now y) (h' : y.Keeps now z) : x.Keeps now z :=
  ⟨fun tInit hx => h'.inv tInit (h.inv tInit hx), fun hx => h'.restorable (h.restorable hx)⟩

theorem keeps_resetChannels (s : State) (c : Chan) : (s.ch c).Keeps s.clock (resetChannels s c) := by
  cases c with
  | ch0 => exact (keeps_reloadedChannel .ch0 s s.ch0).trans Channel.keeps_of
  | ch1 => exact keeps_reloadedChannel .ch1 s s.ch1
  | ch2 => exact keeps_reloadedChannel .ch2 s s.ch2

/-! ### The pass that follows a change (44_irq_scheduler.md R140) -/

/-- The channel, the line and the timer that rescheduling channel `c` at `now` may leave: those of a pass for channel 0,
those of before for the others. -/
structure Passed (s : State) (c : Chan) (now : Int) (y : Channel) (line : Bool) (timer : Option Int) : Prop where
  other : c ≠ .ch0 → y.nextTransitionTime = (s.ch c).nextTransitionTime ∧ line = s.irq ∧ timer = s.timer
  pass : c = .ch0 → y.nextTransitionTime = timer ∧ nextTransition s.params y now = .ok timer ∧
    getOut s.params y now = .ok line

/-- A later change of fields that the time model does not read leaves what the pass computed. -/
theorem Passed.congr {s : State} {c : Chan} {now : Int} {y z : Channel} {line : Bool} {timer : Option Int}
    (h : Passed s c now y line timer) (hcount : y.count = z.count := by rfl)
    (hload : y.countLoadTime = z.countLoadTime := by rfl) (hmode : y.mode = z.mode := by rfl)
    (hnext : y.nextTransitionTime = z.nextTransitionTime := by rfl) : Passed s c now z line timer where
  other hc := hnext ▸ h.other hc
  pass hc := by
    rw [← hnext, ← nextTransition_congr hcount hload hmode, ← getOut_congr hcount hload hmode]
    exact h.pass hc

theorem reschedule_passed {c : Chan} {x : Channel} {s t : State} {now : Int}
    (hnext : x.nextTransitionTime = (s.ch c).nextTransitionTime) (h : reschedule c (s.setCh c x) now = .ok t) :
    ∃ e line timer, Passed s c now { x with nextTransitionTime := e } line timer ∧
      { s.setCh c { x with nextTransitionTime := e } with irq := line, timer := timer } = t := by
  obtain ⟨hc, rfl⟩ | ⟨rfl, e, b, he, hb, rfl⟩ := reschedule_ok h
  · refine ⟨x.nextTransitionTime, s.irq, s.timer, ⟨fun _ => ⟨hnext, rfl, rfl⟩, fun h0 => absurd h0 hc⟩, ?_⟩
    cases c <;> rfl
  · refine ⟨e, b, e, ⟨fun h0 => absurd rfl h0, fun _ => ⟨rfl, ?_, ?_⟩⟩, rfl⟩
    · exact (nextTransition_congr rfl rfl rfl).trans he
    · exact (getOut_congr rfl rfl rfl).trans hb

/-! ### The groups of counter accesses -/

theorem countOfValue_range {v : Nat} (h : v ≤ 65535) : 1 ≤ countOfValue v ∧ countOfValue v ≤ 65536 := by
  unfold countOfValue
  split <;> omega

theorem readLive_next {half : Nat → Byte} {q : Sequencer} {c : Chan} {s t : State} (h : readLive half q c s = .ok t) :
    ∃ b, (s.setCh c { s.ch c with readState := q }).returning (.byte b) = t := by
  obtain ⟨n, -, rfl⟩ := readLive_ok h
  exact ⟨_, rfl⟩

/-- What a counter read does when it runs (42_counter_port.md R118 to R126). -/
theorem counterRead_next {i : Instr} {c : Chan} {s t : State} (hi : isCounterRead i = true) (hc : channelOf i = some c)
    (h : exec i s = .next t) :
    ∃ q k l b, q.access = (s.ch c).readState.access ∧ (k = (s.ch c).countLatched ∨ (s.ch c).countLatched ≠ 0) ∧
      (s.setCh c { s.ch c with readState := q, countLatched := k, statusLatched := l }).returning (.byte b) = t := by
  have hlive : ∀ {half q}, q.access = (s.ch c).readState.access → readLive half q c s = .ok t →
      ∃ q k l b, q.access = (s.ch c).readState.access ∧ (k = (s.ch c).countLatched ∨ (s.ch c).countLatched ≠ 0) ∧
        (s.setCh c { s.ch c with readState := q, countLatched := k, statusLatched := l }).returning (.byte b) = t :=
    fun hq hr => by
      obtain ⟨b, rfl⟩ := readLive_next hr
      exact ⟨_, (s.ch c).countLatched, (s.ch c).statusLatched, b, hq, .inl rfl, rfl⟩
  cases i with
  | rdStatus d =>
    cases hc
    obtain ⟨-, rfl⟩ := exec_rdStatus_eq_next.mp h
    exact ⟨_, _, false, _, rfl, .inl rfl, rfl⟩
  | rdLatchLsb d | rdLatchMsb d | rdLatchWord0 d =>
    cases hc
    obtain ⟨hsel, ht⟩ := answerWhen_ok_eq_next.mp h
    exact ⟨_, _, _, _, rfl, .inr ((latchView_iff.mp hsel).2 ▸ by decide), ht⟩
  | rdLiveLsb d | rdLiveMsb d | rdLiveWord0 d | rdLiveWord1 d =>
    cases hc
    obtain ⟨hsel, hr⟩ := answerWhen_eq_next.mp h
    exact hlive ((liveAt_iff.mp hsel).2 ▸ rfl) hr
  | rdCnt d =>
    cases hc
    obtain ⟨⟨-, hq⟩, -, hr⟩ := exec_rdCnt_eq_next.mp h
    exact hlive (hq ▸ rfl) hr
  | cwMode | cwLatch | cwReadback | wrCntLsb | wrCntMsb | wrCntWord0 | wrCntWord1 | wrCnt | rdCtrl | gate | getGate
  | getCount | getMode | getOut | hpetDisable | hpetEnable | expire | reset => cases hi

/-- What a Load does to channel, line and timer (42_counter_port.md R110). -/
theorem load_next {c : Chan} {v : Nat} {s t : State} (h : load c v s = .ok t) :
    ∃ e line timer,
      Passed s c s.clock { s.ch c with count := countOfValue v, countLoadTime := s.clock, nextTransitionTime := e }
        line timer ∧
      { s.setCh c { s.ch c with count := countOfValue v, countLoadTime := s.clock, nextTransitionTime := e } with
        irq := line, timer := timer } = t := reschedule_passed (by rfl) h

/-- `t` is `s` after a count write to channel `c` that loads: the count is one of sixteen bits or 65536, the load time the
present one, the write sequencer stays within its access, and a pass follows on channel 0. -/
def LoadedFrom (c : Chan) (s t : State) : Prop :=
  ∃ v q e line timer, v ≤ 65535 ∧ q.access = (s.ch c).writeState.access ∧
    Passed s c s.clock
      { s.ch c with count := countOfValue v, countLoadTime := s.clock, writeState := q, nextTransitionTime := e }
      line timer ∧
    { s.setCh c
        { s.ch c with count := countOfValue v, countLoadTime := s.clock, writeState := q, nextTransitionTime := e } with
      irq := line, timer := timer } = t

/-- What a counter write does when it runs (42_counter_port.md R112 to R116): the first byte of a word is held, every
other write loads. -/
theorem counterWrite_next {i : Instr} {c : Chan} {s t : State} (hi : isCounterWrite i = true)
    (hc : channelOf i = some c) (h : exec i s = .next t) :
    (∃ val, i = .wrCntWord0 c val ∧ (s.ch c).writeState = .word0 ∧
      s.setCh c { s.ch c with writeLatch := val, writeState := .word1 } = t) ∨
    ((∀ val, i ≠ .wrCntWord0 c val) ∧ LoadedFrom c s t) := by
  have hload : ∀ {v}, v ≤ 65535 → load c v s = .ok t → LoadedFrom c s t := fun hv hl => by
    obtain ⟨e, line, timer, hpass, ht⟩ := load_next hl
    exact ⟨_, _, e, line, timer, hv, rfl, hpass, ht⟩
  cases i with
  | wrCntWord0 d val =>
    cases hc
    obtain ⟨hw, ht⟩ := exec_wrCntWord0_eq_next.mp h
    exact .inl ⟨val, rfl, hw, ht⟩
  | wrCntLsb d val =>
    cases hc
    have hv : lsbValue val ≤ 65535 := by have := val.isLt; unfold lsbValue; omega
    obtain ⟨-, hl⟩ := exec_wrCntLsb_eq_next.mp h
    exact .inr ⟨fun _ => nofun, hload hv hl⟩
  | wrCntMsb d val =>
    cases hc
    have hv : msbValue val ≤ 65535 := by have := val.isLt; unfold msbValue; omega
    obtain ⟨-, hl⟩ := exec_wrCntMsb_eq_next.mp h
    exact .inr ⟨fun _ => nofun, hload hv hl⟩
  | wrCnt d val =>
    cases hc
    have hv : lsbValue val ≤ 65535 := by have := val.isLt; unfold lsbValue; omega
    obtain ⟨-, -, hl⟩ := exec_wrCnt_eq_next.mp h
    exact .inr ⟨fun _ => nofun, hload hv hl⟩
  | wrCntWord1 d val =>
    cases hc
    obtain ⟨hw, u, hu, rfl⟩ := exec_wrCntWord1_eq_next.mp h
    obtain ⟨e, line, timer, hpass, rfl⟩ := load_next hu
    have hv : wordValue (s.ch c).writeLatch val ≤ 65535 := by
      have := val.isLt
      have := (s.ch c).writeLatch.isLt
      rw [wordValue_eq_add]
      omega
    exact .inr ⟨fun _ => nofun, _, .word0, e, line, timer, hv, hw ▸ rfl, hpass.congr, by cases c <;> rfl⟩
  | cwMode | cwLatch | cwReadback | rdStatus | rdLatchLsb | rdLatchMsb | rdLatchWord0 | rdLiveLsb | rdLiveMsb
  | rdLiveWord0 | rdLiveWord1 | rdCnt | rdCtrl | gate | getGate | getCount | getMode | getOut | hpetDisable | hpetEnable
  | expire | reset => cases hi

/-! ### The effect of an operation -/

/-- What an operation can do to a state. The fields beside the next state say where: which operation it is, which channels
stay as they were, and whether 44_irq_scheduler.md R141 names it as one that runs a pass. -/
inductive Effect (i : Instr) (s : State) : State → Prop
  /-- Channels are edited and a value is returned, with no pass. -/
  | edit (y : Chan → Channel) (r : Option Result) (keeps : ∀ c, (s.ch c).Keeps s.clock (y c))
      (times : ∀ c, (y c).countLoadTime = (s.ch c).countLoadTime ∧
        (y c).nextTransitionTime = (s.ch c).nextTransitionTime)
      (gate : i.onBus = true → ∀ c, (y c).gate = (s.ch c).gate)
      (separate : ∀ c, channelOf i = some c → ∀ d, d ≠ c → y d = s.ch d)
      (nopass : mayRunPass s i = true → ∃ level, i = .gate .ch0 level ∧ OpMode.ofField s.ch0.mode = none) :
      Effect i s { s.withChannels y with result := r }
  /-- One channel is edited and rescheduled. -/
  | timed (c : Chan) (now : Int) (y : Channel) (line : Bool) (timer : Option Int)
      (keeps : (s.ch c).Keeps s.clock y) (passed : Passed s c now y line timer)
      (gate : i.onBus = true → y.gate = (s.ch c).gate)
      (separate : ∀ d, channelOf i = some d → d = c)
      (pass : mayRunPass s i = decide (c = .ch0)) (time : passTime s i = some now) :
      Effect i s { s.setCh c y with irq := line, timer := timer }
  /-- The timer is cancelled (43_gate_and_api.md R136). -/
  | cancel (hi : i = .hpetDisable) : Effect i s { s with timer := none }
  /-- The three channels are reset (70_reset_and_hazards.md R171). -/
  | reset (hi : i = .reset) :
      Effect i s { s.withChannels (resetChannels s) with irq := true, timer := some (s.clock + 27462700) }

section
variable {i : Instr} {s : State}

/-- An edit of one channel, with a value returned. -/
theorem Effect.edit_returning {c : Chan} {x : Channel} (r : Option Result) (keeps : (s.ch c).Keeps s.clock x)
    (times : x.countLoadTime = (s.ch c).countLoadTime ∧ x.nextTransitionTime = (s.ch c).nextTransitionTime)
    (gate : i.onBus = true → x.gate = (s.ch c).gate)
    (named : ∀ d, channelOf i = some d → d = c)
    (nopass : mayRunPass s i = true → ∃ level, i = .gate .ch0 level ∧ OpMode.ofField s.ch0.mode = none) :
    Effect i s { s.setCh c x with result := r } := by
  rw [State.setCh_eq_withChannels]
  refine .edit _ r ?_ ?_ (fun hbus => ?_) (fun d hd e he => ?_) nopass
  · exact (Function.forall_update_iff s.ch _).mpr ⟨keeps, fun d _ => Channel.Keeps.refl _ (s.ch d)⟩
  · exact (Function.forall_update_iff s.ch fun d z => z.countLoadTime = (s.ch d).countLoadTime ∧
      z.nextTransitionTime = (s.ch d).nextTransitionTime).mpr ⟨times, fun _ _ => ⟨rfl, rfl⟩⟩
  · exact (Function.forall_update_iff s.ch fun d z => z.gate = (s.ch d).gate).mpr ⟨gate hbus, fun _ _ => rfl⟩
  · exact Function.update_of_ne (named d hd ▸ he) x s.ch

theorem Effect.edit_one {c : Chan} {x : Channel} (keeps : (s.ch c).Keeps s.clock x)
    (times : x.countLoadTime = (s.ch c).countLoadTime ∧ x.nextTransitionTime = (s.ch c).nextTransitionTime)
    (gate : i.onBus = true → x.gate = (s.ch c).gate)
    (named : ∀ d, channelOf i = some d → d = c)
    (nopass : mayRunPass s i = true → ∃ level, i = .gate .ch0 level ∧ OpMode.ofField s.ch0.mode = none) :
    Effect i s (s.setCh c x) :=
  Effect.edit_returning (s.setCh c x).result keeps times gate named nopass

/-- An operation that only returns a value. -/
theorem Effect.returning (r : Result) (nopass : mayRunPass s i = false) : Effect i s (s.returning r) :=
  .edit s.ch (some r) (fun _ => Channel.Keeps.refl _ _) (fun _ => ⟨rfl, rfl⟩) (fun _ _ => rfl) (fun _ _ _ _ => rfl)
    (fun h => absurd (nopass.symm.trans h) (by decide))

end

section
variable {c : Chan} {s t : State} {level : Nat}

/-- In an operating mode a gate event of channel 0 is one of R141 exactly when it reloads (43_gate_and_api.md R130). -/
theorem mayRunPass_gate_ch0 {m : OpMode} {reload : Bool} (hm : OpMode.ofField s.ch0.mode = some m)
    (hr : gateReloads s.params s.ch0 (decide (level = 1)) = .ok reload) : mayRunPass s (.gate .ch0 level) = reload := by
  rw [gateReloads_row hm, Except.ok.injEq] at hr
  subst hr
  simp only [mayRunPass, hm]
  cases m <;> simp [risingEdge]

theorem mayRunPass_gate_other (hc : c ≠ .ch0) : mayRunPass s (.gate c level) = false := by
  simp [mayRunPass, hc]

theorem mayRunPass_gate_unstated (hm : OpMode.ofField s.ch0.mode = none) : mayRunPass s (.gate .ch0 level) = true := by
  simp [mayRunPass, hm]

theorem passTime_of_ne {i : Instr} (h : i ≠ .expire) : passTime s i = some s.clock := if_neg h

theorem gate_effect (h : exec (.gate c level) s = .next t) : Effect (.gate c level) s t := by
  obtain ⟨-, reload, hr, u, hu, rfl⟩ := exec_gate_eq_next.mp h
  cases reload with
  | false =>
    cases hu
    refine .edit_one Channel.keeps_of ⟨rfl, rfl⟩ nofun (fun d hd => (Option.some.inj hd).symm) fun hpass => ?_
    by_cases hc : c = .ch0
    · subst hc
      cases hm : OpMode.ofField s.ch0.mode with
      | none => exact ⟨level, rfl, rfl⟩
      | some m => exact absurd ((mayRunPass_gate_ch0 hm hr).symm.trans hpass) (by decide)
    · exact absurd ((mayRunPass_gate_other hc).symm.trans hpass) (by decide)
  | true =>
    obtain ⟨e, line, timer, hpassed, rfl⟩ := reschedule_passed (by rfl) hu
    have hstore : storeGate c (decide (level = 1))
        { s.setCh c { s.ch c with countLoadTime := s.clock, nextTransitionTime := e } with irq := line, timer := timer } =
        { s.setCh c { s.ch c with
            countLoadTime := s.clock, nextTransitionTime := e, gate := decide (level = 1) } with
          irq := line, timer := timer } := by cases c <;> rfl
    rw [hstore]
    refine .timed c s.clock _ line timer (Channel.keeps_of (hload := .inr rfl)) hpassed.congr nofun
      (fun d hd => (Option.some.inj hd).symm) ?_ (passTime_of_ne nofun)
    by_cases hc : c = .ch0
    · subst hc
      cases hm : OpMode.ofField s.ch0.mode with
      | none => exact mayRunPass_gate_unstated hm
      | some m => exact mayRunPass_gate_ch0 hm hr
    · rw [mayRunPass_gate_other hc, decide_eq_false hc]

theorem counterRead_effect {i : Instr} (hi : isCounterRead i = true) (hc : channelOf i = some c)
    (h : exec i s = .next t) : Effect i s t := by
  obtain ⟨q, k, l, b, hq, hk, rfl⟩ := counterRead_next hi hc h
  refine .edit_returning _ (Channel.keeps_of (hread := hq) (hlatch := hk.imp id .inr)) ⟨rfl, rfl⟩ (fun _ => rfl)
    (fun d hd => Option.some.inj (hd.symm.trans hc)) fun hpass => ?_
  cases i with
  | rdStatus | rdLatchLsb | rdLatchMsb | rdLatchWord0 | rdLiveLsb | rdLiveMsb | rdLiveWord0 | rdLiveWord1 | rdCnt =>
    cases hpass
  | _ => cases hi

theorem mayRunPass_counterWrite {i : Instr} (hi : isCounterWrite i = true) (hc : channelOf i = some c)
    (hw : ∀ val, i ≠ .wrCntWord0 c val) : mayRunPass s i = decide (c = .ch0) := by
  cases i with
  | wrCntLsb | wrCntMsb | wrCntWord1 | wrCnt => cases hc; rfl
  | wrCntWord0 d val => cases hc; exact absurd rfl (hw val)
  | _ => cases hi

theorem counterWrite_effect {i : Instr} (hi : isCounterWrite i = true) (hc : channelOf i = some c)
    (h : exec i s = .next t) : Effect i s t := by
  have hnamed : ∀ d, channelOf i = some d → d = c := fun d hd => Option.some.inj (hd.symm.trans hc)
  obtain ⟨val, rfl, hw, rfl⟩ | ⟨hword, v, q, e, line, timer, hv, hq, hpassed, rfl⟩ := counterWrite_next hi hc h
  · exact .edit_one (Channel.keeps_of (hwrite := hw ▸ rfl)) ⟨rfl, rfl⟩ (fun _ => rfl) hnamed nofun
  · refine .timed c s.clock _ line timer ?_ hpassed (fun _ => rfl) hnamed (mayRunPass_counterWrite hi hc hword) ?_
    · exact Channel.keeps_of (hcount := .inr (countOfValue_range hv)) (hload := .inr rfl) (hwrite := hq)
    · exact passTime_of_ne fun hi' => by subst hi'; cases hi

theorem readBack_effect {r : ReadBack} (h : exec (.cwReadback r) s = .next t) : Effect (.cwReadback r) s t := by
  obtain ⟨hy, ht⟩ := exec_cwReadback_eq_next.mp h
  have hlatched : ∀ c, t.ch c = s.ch c ∨ ∃ n o, t.ch c = latchedChannel r (s.ch c) n o := fun c => by
    have hc := hy c
    cases hsel : r.selects c with
    | false =>
      rw [hsel, readBackChannel_unselected] at hc
      exact .inl hc.symm
    | true =>
      rw [hsel, readBackChannel_selected] at hc
      obtain ⟨n, o, -, -, hc⟩ := hc
      exact .inr ⟨n, o, hc.symm⟩
  rw [← ht]
  refine .edit t.ch s.result (fun c => ?_) (fun c => ?_) (fun _ c => ?_) nofun nofun
  · obtain hc | ⟨n, o, hc⟩ := hlatched c <;> rw [hc]
    · exact Channel.Keeps.refl _ _
    · exact keeps_latchedChannel r _ n o _
  · obtain hc | ⟨n, o, hc⟩ := hlatched c <;> rw [hc] <;> exact ⟨rfl, rfl⟩
  · obtain hc | ⟨n, o, hc⟩ := hlatched c <;> rw [hc]
    rfl

/-- A latch changes the count latch alone, and lets it become pending only as `rw_mode` says. -/
theorem latchCount_next {p : Params} {x y : Channel} {now : Int} (h : latchCount p x now = .ok y) :
    ∃ l k, (k = x.countLatched ∨ k = x.rwMode) ∧ { x with latchedCount := l, countLatched := k } = y := by
  obtain ⟨-, rfl⟩ | ⟨-, n, -, rfl⟩ := latchCount_ok h
  · exact ⟨_, _, .inl rfl, rfl⟩
  · exact ⟨_, _, .inr rfl, rfl⟩

/-- Every operation that runs has one of the four effects. -/
theorem exec_effect {i : Instr} (h : exec i s = .next t) : Effect i s t := by
  cases i with
  | cwMode c a mode bcd =>
    cases h
    exact .edit_one (keeps_programmedChannel a mode bcd _ _) ⟨rfl, rfl⟩ (fun _ => rfl) (fun d hd => (Option.some.inj hd).symm)
      nofun
  | cwLatch c =>
    obtain ⟨y, hy, rfl⟩ := exec_cwLatch_eq_next.mp h
    obtain ⟨l, k, hk, rfl⟩ := latchCount_next hy
    exact .edit_one (Channel.keeps_of (hlatch := hk.imp id .inl)) ⟨rfl, rfl⟩ (fun _ => rfl)
      (fun d hd => (Option.some.inj hd).symm) nofun
  | cwReadback r => exact readBack_effect h
  | wrCntLsb | wrCntMsb | wrCntWord0 | wrCntWord1 | wrCnt => exact counterWrite_effect rfl rfl h
  | rdStatus | rdLatchLsb | rdLatchMsb | rdLatchWord0 | rdLiveLsb | rdLiveMsb | rdLiveWord0 | rdLiveWord1 | rdCnt =>
    exact counterRead_effect rfl rfl h
  | rdCtrl => cases h
  | gate c level => exact gate_effect h
  | getGate | getCount | getMode =>
    cases h
    exact .returning _ rfl
  | getOut c =>
    obtain ⟨b, -, rfl⟩ := exec_getOut_eq_next.mp h
    exact .returning _ rfl
  | hpetDisable =>
    cases h
    exact .cancel rfl
  | hpetEnable =>
    rw [exec_hpetEnable, answer_eq_next, load_ch0_zero_mode3 rfl] at h
    cases h
    have hcount := countOfValue_range (v := 0) (by decide)
    refine .timed .ch0 s.clock _ true _ (Channel.keeps_of (hcount := .inr hcount) (hload := .inr rfl)) ?_ nofun nofun
      rfl (passTime_of_ne nofun)
    exact ⟨fun hne => absurd rfl hne, fun _ => ⟨rfl, mode3_nextTransition rfl rfl, mode3_getOut rfl rfl⟩⟩
  | expire =>
    obtain ⟨deadline, now, -, hnow, -, hpass⟩ := exec_expire_eq_next.mp h
    obtain ⟨e, line, timer, hpassed, rfl⟩ := reschedule_passed (c := .ch0) (x := s.ch0) rfl hpass
    exact .timed .ch0 now _ line timer Channel.keeps_of hpassed nofun nofun rfl hnow
  | reset =>
    rw [exec_reset] at h
    cases h
    exact .reset rfl

end

end Sys2Proof.Machine
end

section
/-! PROOFS. The invariant of the reachable states (10_state.md R27): every effect keeps it, so every step and every run
does, and the obligations about it. -/

namespace Sys2Proof.Machine

/-! ### Every effect keeps the invariant -/

section
variable {i : Instr} {s t : State}

/-- The timer a pass arms lies after the load: a query answers at or after it, and only with a later time. -/
theorem Passed.timer_after_load {now deadline : Int} {y : Channel} {line : Bool}
    (h : Passed s .ch0 now y line (some deadline)) :
    y.nextTransitionTime = some deadline ∧ y.countLoadTime < deadline := by
  obtain ⟨hnext, htrans, -⟩ := h.pass rfl
  exact ⟨hnext, lt_of_le_of_lt (nextTransition_ok htrans) (nextTransition_future htrans)⟩

theorem Passed.inv_timer {c : Chan} {now : Int} {y : Channel} {line : Bool} {timer : Option Int} {deadline : Int}
    (h : Passed s c now y line timer) (hs : s.Inv) (ht : timer = some deadline) :
    (s.setCh c y).ch0.nextTransitionTime = some deadline ∧ (s.setCh c y).ch0.countLoadTime < deadline := by
  cases c with
  | ch0 => exact (ht ▸ h).timer_after_load
  | ch1 | ch2 =>
    obtain ⟨-, -, htimer⟩ := h.other (by decide)
    exact hs.timer_next deadline (htimer ▸ ht)

theorem Passed.restorable_timer {c : Chan} {now : Int} {y : Channel} {line : Bool} {timer : Option Int}
    (h : Passed s c now y line timer) (hs : s.Restorable) :
    timer = none ∨ timer = (s.setCh c y).ch0.nextTransitionTime := by
  cases c with
  | ch0 => exact .inr (h.pass rfl).1.symm
  | ch1 | ch2 =>
    obtain ⟨-, -, htimer⟩ := h.other (by decide)
    exact htimer ▸ hs.timer_next

end

section
variable {i : Instr} {s t : State}

theorem State.timed_ch (s : State) (c : Chan) (y : Channel) (line : Bool) (timer : Option Int) :
    ({ s.setCh c y with irq := line, timer := timer } : State).ch = Function.update s.ch c y := by
  funext d
  cases c <;> cases d <;> rfl

theorem Effect.keeps_inputs (h : Effect i s t) : t.params = s.params ∧ t.clock = s.clock ∧ t.inbox = s.inbox := by
  cases h with
  | edit | cancel | reset => exact ⟨rfl, rfl, rfl⟩
  | timed c => exact ⟨State.setCh_params s c _, State.setCh_clock s c _, State.setCh_inbox s c _⟩

theorem Effect.keeps_channel (h : Effect i s t) (c : Chan) : (s.ch c).Keeps s.clock (t.ch c) := by
  cases h with
  | edit y r keeps => exact (State.withChannels_ch s y c).symm ▸ keeps c
  | timed d now y line timer keeps =>
    rw [State.timed_ch]
    revert c
    exact (Function.forall_update_iff s.ch _).mpr ⟨keeps, fun e _ => Channel.Keeps.refl _ (s.ch e)⟩
  | cancel => exact Channel.Keeps.refl _ _
  | reset => exact State.withChannels_ch s (resetChannels s) c ▸ keeps_resetChannels s c

theorem Effect.inv_timer (h : Effect i s t) (hs : s.Inv) {deadline : Int} (ht : t.timer = some deadline) :
    t.ch0.nextTransitionTime = some deadline ∧ t.ch0.countLoadTime < deadline := by
  cases h with
  | edit y r keeps times =>
    obtain ⟨hload, hnext⟩ := times .ch0
    exact ⟨hnext.trans (hs.timer_next deadline ht).1, hload ▸ (hs.timer_next deadline ht).2⟩
  | timed c now y line timer keeps passed => exact passed.inv_timer hs ht
  | cancel => cases ht
  | reset =>
    cases ht
    exact ⟨rfl, Int.lt_add_of_pos_right _ (by decide)⟩

theorem Effect.restorable_timer (h : Effect i s t) (hs : s.Restorable) :
    t.timer = none ∨ t.timer = t.ch0.nextTransitionTime := by
  cases h with
  | edit y r keeps times => exact hs.timer_next.imp id (·.trans (times .ch0).2.symm)
  | timed c now y line timer keeps passed => exact passed.restorable_timer hs
  | cancel => exact .inl rfl
  | reset => exact .inr rfl

theorem Effect.inv (h : Effect i s t) (hs : s.Inv) : t.Inv := by
  obtain ⟨hparams, hclock, -⟩ := h.keeps_inputs
  refine ⟨?_, ?_, ?_, fun _ => h.inv_timer hs⟩ <;> rw [hparams, hclock]
  · exact (h.keeps_channel .ch0).inv _ hs.ch0
  · exact (h.keeps_channel .ch1).inv _ hs.ch1
  · exact (h.keeps_channel .ch2).inv _ hs.ch2

theorem Effect.restorable (h : Effect i s t) (hs : s.Restorable) : t.Restorable := by
  obtain ⟨-, hclock, -⟩ := h.keeps_inputs
  refine ⟨?_, ?_, ?_, h.restorable_timer hs⟩ <;> rw [hclock]
  · exact (h.keeps_channel .ch0).restorable hs.ch0
  · exact (h.keeps_channel .ch1).restorable hs.ch1
  · exact (h.keeps_channel .ch2).restorable hs.ch2

end

/-! ### Events and steps -/

/-- R27 and the invariant speak of the clock as an upper bound only, so that the passing of time keeps them. -/
theorem Channel.Restorable.later {x : Channel} {now : Int} (h : x.Restorable now) (wait : Nat) :
    x.Restorable (now + wait) :=
  { h with load_past := h.load_past.trans (Int.le_add_of_nonneg_right (Int.natCast_nonneg wait)) }

theorem Channel.Inv.later {x : Channel} {tInit now : Int} (h : x.Inv tInit now) (wait : Nat) :
    x.Inv tInit (now + wait) :=
  { h with toRestorable := h.toRestorable.later wait }

theorem arrive_inv {s : State} (h : s.Inv) (e : Event) (rest : List Event) : (arrive s e rest).Inv where
  ch0 := h.ch0.later e.wait
  ch1 := h.ch1.later e.wait
  ch2 := h.ch2.later e.wait
  timer_next := h.timer_next

theorem arrive_restorable {s : State} (h : s.Restorable) (e : Event) (rest : List Event) :
    (arrive s e rest).Restorable where
  ch0 := h.ch0.later e.wait
  ch1 := h.ch1.later e.wait
  ch2 := h.ch2.later e.wait
  timer_next := h.timer_next

/-- A step idles, or runs an operation at the arrival of the next event. -/
theorem step_next {s t : State} (h : step s = .next t) :
    t = s ∨ ∃ e rest i, s.inbox = e :: rest ∧ requestInstr (arrive s e rest) e.request = .ok i ∧
      exec i (arrive s e rest) = .next t := by
  unfold step at h
  cases hin : s.inbox with
  | nil => rw [hin] at h; exact .inl (Host.Outcome.next.inj h).symm
  | cons e rest =>
    rw [hin] at h
    simp only [process] at h
    cases hi : requestInstr (arrive s e rest) e.request with
    | error r => rw [hi] at h; cases h
    | ok i => rw [hi] at h; exact .inr ⟨e, rest, i, rfl, hi, h⟩

/-- A property of states that arrivals and operations keep is kept by every step. -/
theorem step_keeps {P : State → Prop} (harrive : ∀ s e rest, P s → P (arrive s e rest))
    (hexec : ∀ i s t, exec i s = .next t → P s → P t) {s t : State} (h : step s = .next t) (hs : P s) : P t := by
  obtain rfl | ⟨e, rest, i, -, -, hi⟩ := step_next h
  · exact hs
  · exact hexec i _ _ hi (harrive _ _ _ hs)

/-- A property of states that every step keeps holds along every run. -/
theorem run_keeps {P : State → Prop} (hstep : ∀ s t, step s = .next t → P s → P t) {k : Nat} {s t : State}
    (h : Host.Core.run Sys2Proof.core k s = .next t) (hs : P s) : P t := by
  induction k generalizing s with
  | zero => cases h; exact hs
  | succ k ih =>
    simp only [Host.Core.run] at h
    cases hst : Sys2Proof.core.step s with
    | next u => rw [hst] at h; exact ih h (hstep s u hst hs)
    | fault r | refused r => rw [hst] at h; cases h

theorem step_inv {s t : State} (h : step s = .next t) (hs : s.Inv) : t.Inv :=
  step_keeps (fun _ e rest hu => arrive_inv hu e rest) (fun _ _ _ hi => (exec_effect hi).inv) h hs

theorem step_restorable {s t : State} (h : step s = .next t) (hs : s.Restorable) : t.Restorable :=
  step_keeps (fun _ e rest hu => arrive_restorable hu e rest) (fun _ _ _ hi => (exec_effect hi).restorable) h hs

/-! ### Where runs begin -/

theorem constructed_inv (p : Params) (events : List Event) : State.Inv { State.constructed p with inbox := events } := by
  have hch : ∀ gate next, (Channel.constructed p.tInit gate next).Inv p.tInit p.tInit := fun gate next =>
    { count_pos := (by decide : 1 ≤ 65536)
      count_le := le_refl 65536
      load_past := le_refl p.tInit
      read_programmed := iff_of_true rfl rfl
      write_programmed := iff_of_true rfl rfl
      status_bit6 := (by decide : (0 : Byte).getLsbD 6 = false)
      load_after_init := le_refl p.tInit
      read_access := rfl
      write_access := rfl
      unprogrammed_unlatched := fun _ => rfl }
  refine ⟨hch _ _, hch _ _, hch _ _, ?_⟩
  rintro _ ⟨⟩
  exact ⟨rfl, Int.lt_add_of_pos_right _ (by decide)⟩

/-- A pass changes only what R27 leaves free but for the timer, which it sets to the next transition time. -/
theorem schedulerPass_restorable {s t : State} {now : Int} (h : schedulerPass s now = .ok t) (hs : s.Restorable) :
    t.Restorable := by
  obtain ⟨e, b, -, -, rfl⟩ := schedulerPass_ok h
  exact ⟨(Channel.keeps_of (x := s.ch0)).restorable hs.ch0, hs.ch1, hs.ch2, .inr rfl⟩

theorem restoredWith_restorable {put : State → Prop} {s : State} (h : RestoredWith put s) : s.Restorable := by
  obtain ⟨-, hs⟩ | ⟨r, -, hr, hpass⟩ := h
  · exact hs
  · exact schedulerPass_restorable hpass hr

end Sys2Proof.Machine

namespace Sys2Proof.InvariantProofs

open Sys2Proof.Machine

/-- Settles O56: time only raises the bound on the load times, and each of the four effects keeps every channel's invariant
and the timer's. -/
theorem stepKeepsTheInvariant : Obligations.StepKeepsTheInvariant :=
  fun _ _ h => ⟨step_inv h, step_restorable h⟩

/-- Settles O55: the fields that construction gives, whose deadline lies 27462700 ns after T_INIT. -/
theorem invariantAfterConstruction : Obligations.InvariantAfterConstruction := constructed_inv

/-- Settles O57: the invariant and R27 hold where the run begins and every step keeps them. -/
theorem invariantAlongEveryRun : Obligations.InvariantAlongEveryRun := by
  refine ⟨fun p events k t h => ?_, fun v2 v1 s t events k hs h => ?_⟩
  · have ht : t.Inv := run_keeps (fun _ _ => step_inv) h (constructed_inv p events)
    exact ⟨ht, ht.restorable⟩
  · have hr : s.Restorable := hs.elim restoredWith_restorable restoredWith_restorable
    exact run_keeps (fun _ _ => step_restorable) h ⟨hr.ch0, hr.ch1, hr.ch2, hr.timer_next⟩

end Sys2Proof.InvariantProofs
end

section
/-! PROOFS. The time model beyond its tables (40_time_model.md R81, R96, R97, R99): the two floors, the edges of OUT and
the ticks the tables give, modes 6 and 7, and the obligations about them. -/

namespace Sys2Proof.Machine

/-! ### Ticks and nanoseconds (R81, R96, R97 fact 1) -/

section
variable {x : Channel} {t : Int}

theorem elapsed_eq_ticksSince (ht : x.countLoadTime ≤ t) : elapsed x t = .ok (ticksSince x t) :=
  (elapsed_of_le ht).trans (congrArg _ (timeToTicks_sinceLoad ht))

theorem ticksSince_cast (ht : x.countLoadTime ≤ t) :
    (ticksSince x t : Int) = (t - x.countLoadTime) * 1193182 / 1000000000 := by
  unfold ticksSince
  omega

theorem ticksSince_add (n : Nat) : ticksSince x (x.countLoadTime + n) = timeToTicks n := by
  rw [← timeToTicks_sinceLoad (Int.le_add_of_nonneg_right (Int.natCast_nonneg n)), add_sub_cancel_left,
    Int.toNat_natCast]

end

theorem ticksToTime_eq (n : Nat) : ticksToTime n = n * 1000000000 / 1193182 := rfl

theorem timeToTicks_eq (ns : Nat) : timeToTicks ns = ns * 1193182 / 1000000000 := rfl

theorem ticksToTime_cast (n : Nat) : (ticksToTime n : Int) = (n : Int) * 1000000000 / 1193182 := by
  rw [ticksToTime_eq]
  omega

/-- The host time of a tick is exact for the multiples of 596591, since 10^9 / 1193182 is 500000000 / 596591 in lowest
terms. -/
theorem timeToTicks_ticksToTime_of_dvd {n : Nat} (h : 596591 ∣ n) : timeToTicks (ticksToTime n) = n := by
  rw [timeToTicks_eq, ticksToTime_eq]
  omega

/-- The host time of any other tick is rounded down, into the tick before. -/
theorem timeToTicks_ticksToTime_of_not_dvd {n : Nat} (h : ¬ 596591 ∣ n) : timeToTicks (ticksToTime n) = n - 1 := by
  have hrounded : ¬ 1193182 ∣ n * 1000000000 := fun hdvd =>
    h (Nat.Coprime.dvd_of_dvd_mul_right (by norm_num) ((Dvd.intro_left 2 rfl : 596591 ∣ 1193182).trans hdvd))
  rw [timeToTicks_eq, ticksToTime_eq]
  omega

theorem timeToTicks_ticksToTime_succ (n : Nat) : timeToTicks (ticksToTime n + 1) = n := by
  rw [timeToTicks_eq, ticksToTime_eq]
  omega

/-! ### The conversion of the next transition (R96) -/

section
variable {p : Params} {x : Channel} {t : Int}

theorem tickTime_eq (n : Nat) :
    tickTime x t n =
      if x.countLoadTime + (n : Int) * 1000000000 / 1193182 ≤ t then t + 1
      else x.countLoadTime + (n : Int) * 1000000000 / 1193182 := by
  rw [← ticksToTime_cast]
  rfl

theorem nextTransition_of_error {r : Refusal} (h : nextTicks p x t = .error r) : nextTransition p x t = .error r := by
  rw [nextTransition, h]
  rfl

theorem nextTransition_of_ok {n : Option Nat} (h : nextTicks p x t = .ok n) :
    nextTransition p x t = .ok (n.map (tickTime x t)) := by
  rw [nextTransition, h]
  rfl

end

/-! ### Edges of OUT (R97 facts 3 to 6) -/

/-- `next` is the first tick after `d` at which `out` differs from its level at `d`, or none where it never does. -/
def IsNextEdge (out : Nat → Bool) (d : Nat) : Option Nat → Prop
  | some n => d < n ∧ out n ≠ out d ∧ ∀ k, d ≤ k → k < n → out k = out d
  | none => ∀ k, d ≤ k → out k = out d

theorem IsNextEdge.none_iff {out : Nat → Bool} {d : Nat} {next : Option Nat} (h : IsNextEdge out d next) :
    next = none ↔ ∀ k, d ≤ k → out k = out d := by
  cases next with
  | none => exact iff_of_true rfl h
  | some n =>
    obtain ⟨hlt, hne, -⟩ := h
    exact iff_of_false nofun fun hall => hne (hall n hlt.le)

/-- The period that begins at `q * count`: the position in it is the remainder. -/
theorem div_mod_in_period {count q k : Nat} (hlo : q * count ≤ k) (hhi : k < q * count + count) :
    k / count = q ∧ k % count = k - q * count := by
  have hdiv : k / count = q := Nat.div_eq_of_lt_le hlo (by rwa [Nat.succ_mul])
  have hsplit := Nat.div_add_mod' k count
  rw [hdiv] at hsplit
  exact ⟨hdiv, by omega⟩

/-- Every tick lies in a period of a positive count. -/
theorem exists_period {count : Nat} (hc : 1 ≤ count) (d : Nat) : ∃ q, q * count ≤ d ∧ d < q * count + count :=
  ⟨d / count, Nat.div_mul_le_self d count, Nat.lt_div_mul_add hc⟩

section
variable {count d q : Nat}

theorem nextTicksAt_mode2_in_period (hlo : q * count ≤ d) (hhi : d < q * count + count) :
    nextTicksAt .mode2 count d =
      some (if d = q * count ∧ d ≠ 0 then q * count + count else q * count + count + 1) := by
  have hstart : d - q * count = 0 ↔ d = q * count := by omega
  simp only [nextTicksAt_mode2, (div_mod_in_period hlo hhi).1, hstart]

theorem nextTicksAt_mode3_in_period (hlo : q * count ≤ d) (hhi : d < q * count + count) :
    nextTicksAt .mode3 count d =
      some (if d - q * count < (count + 1) / 2 then q * count + (count + 1) / 2 else q * count + count) := by
  rw [nextTicksAt_mode3, (div_mod_in_period hlo hhi).1]

theorem outAt_mode3_in_period (hlo : q * count ≤ d) (hhi : d < q * count + count) :
    outAt .mode3 count d = true ↔ d - q * count < (count + 1) / 2 := by
  rw [outAt_mode3, (div_mod_in_period hlo hhi).2]

theorem outAt_mode3_period_end : outAt .mode3 count (q * count + count) = true ↔ 0 < (count + 1) / 2 := by
  rw [outAt_mode3, ← Nat.succ_mul, Nat.mul_mod_left]

end

/-- In modes 0, 1, 4 and 5 OUT depends on whether the count has been reached and, in 4 and 5, passed; in mode 3 on the half
of the period. Each half lies in one period, and the next edge is its end (R97 fact 5). -/
theorem nextTicksAt_isNextEdge {m : OpMode} {count : Nat} (d : Nat) (hc : 1 ≤ count) (h2 : m ≠ .mode2)
    (h3 : m = .mode3 → 2 ≤ count) : IsNextEdge (outAt m count) d (nextTicksAt m count d) := by
  cases m with
  | mode0 | mode1 =>
    simp only [nextTicksAt]
    split_ifs <;> simp only [IsNextEdge, outAt, ne_eq, decide_eq_decide]
    · exact ⟨by omega, by omega, fun k _ _ => by omega⟩
    · exact fun k _ => by omega
  | mode4 | mode5 =>
    simp only [nextTicksAt]
    split_ifs <;> simp only [IsNextEdge, outAt, ne_eq, decide_eq_decide, decide_true, true_eq_decide_iff]
    · exact ⟨by omega, by omega, fun k _ _ => by omega⟩
    · exact ⟨by omega, by omega, fun k _ _ => by omega⟩
    · exact fun k _ => by omega
  | mode2 => exact absurd rfl h2
  | mode3 =>
    have hcount := h3 rfl
    obtain ⟨q, hlo, hhi⟩ := exists_period hc d
    have hd := outAt_mode3_in_period hlo hhi
    have hend := outAt_mode3_period_end (count := count) (q := q)
    rw [nextTicksAt_mode3_in_period hlo hhi]
    split_ifs with hhalf
    · refine ⟨by omega, ?_, fun k hk hkn => ?_⟩
      · rw [ne_eq, Bool.eq_iff_iff, outAt_mode3_in_period (q := q) (by omega) (by omega), hd]
        omega
      · rw [Bool.eq_iff_iff, outAt_mode3_in_period (q := q) (by omega) (by omega), hd]
        omega
    · refine ⟨hhi, ?_, fun k hk hkn => ?_⟩
      · rw [ne_eq, Bool.eq_iff_iff, hend, hd]
        omega
      · rw [Bool.eq_iff_iff, outAt_mode3_in_period (q := q) (by omega) (by omega), hd]
        omega

/-- A tick given is a later one, and is given until it has come, in the count of 1 that fact 5 leaves out as well. -/
theorem nextTicksAt_until {m : OpMode} {count d n : Nat} (hc : 1 ≤ count) (h2 : m ≠ .mode2)
    (hn : nextTicksAt m count d = some n) : d < n ∧ ∀ k, d ≤ k → k < n → nextTicksAt m count k = some n := by
  cases m with
  | mode0 | mode1 | mode4 | mode5 =>
    simp only [nextTicksAt] at hn ⊢
    refine ⟨by split_ifs at hn <;> simp only [Option.some.injEq] at hn <;> omega, fun k _ _ => ?_⟩
    split_ifs at hn ⊢ <;> simp only [Option.some.injEq] at hn ⊢ <;> omega
  | mode2 => exact absurd rfl h2
  | mode3 =>
    obtain ⟨q, hlo, hhi⟩ := exists_period hc d
    rw [nextTicksAt_mode3_in_period hlo hhi, Option.some.injEq] at hn
    refine ⟨by split_ifs at hn <;> omega, fun k hk hkn => ?_⟩
    rw [nextTicksAt_mode3_in_period (hlo.trans hk) (by split_ifs at hn <;> omega), Option.some.injEq]
    split_ifs at hn ⊢ <;> omega

/-- In mode 2 OUT is 1 at the start of every period but the first, and 0 elsewhere. -/
theorem outAt_mode2_in_period {count d q : Nat} (hlo : q * count ≤ d) (hhi : d < q * count + count) :
    outAt .mode2 count d = decide (d = q * count ∧ d ≠ 0) := by
  have hstart : d - q * count = 0 ↔ d = q * count := by omega
  simp only [outAt, (div_mod_in_period hlo hhi).2, hstart]

/-! ### Modes 6 and 7 (R99) -/

section
variable {p : Params} {x y : Channel} {t : Int}

/-- Two channels whose queries take one row answer alike, whatever their mode fields. -/
theorem timeQuery_eq_of_row {α : Type} {arm m : OpMode} (row : OpMode → Nat → α) (free free' : α)
    (hx : modeLaw p.mode67 arm x.mode = .row m) (hy : modeLaw p.mode67 arm y.mode = .row m)
    (hload : x.countLoadTime = y.countLoadTime) :
    timeQuery p arm row free x t = timeQuery p arm row free' y t := by
  simp only [timeQuery, elapsed, hx, hy, hload]

section
variable {m : OpMode} (hcount : x.count = y.count) (hload : x.countLoadTime = y.countLoadTime)
include hcount hload

theorem getCount_eq_of_row (hx : modeLaw p.mode67 .mode2 x.mode = .row m)
    (hy : modeLaw p.mode67 .mode2 y.mode = .row m) : getCount p x t = getCount p y t := by
  rw [getCount, hcount]
  exact timeQuery_eq_of_row _ _ _ hx hy hload

theorem getOut_eq_of_row (hx : modeLaw p.mode67 .mode0 x.mode = .row m)
    (hy : modeLaw p.mode67 .mode0 y.mode = .row m) : getOut p x t = getOut p y t := by
  rw [getOut, hcount]
  exact timeQuery_eq_of_row _ _ _ hx hy hload

theorem nextTransition_eq_of_row (hx : modeLaw p.mode67 .mode0 x.mode = .row m)
    (hy : modeLaw p.mode67 .mode0 y.mode = .row m) : nextTransition p x t = nextTransition p y t := by
  have hticks : nextTicks p x t = nextTicks p y t := by
    rw [nextTicks, hcount]
    exact timeQuery_eq_of_row _ _ _ hx hy hload
  have htime : tickTime x t = tickTime y t := by
    funext n
    rw [tickTime_eq, tickTime_eq, hload]
  rw [nextTransition, nextTransition, hticks, htime]

end

theorem ofField_unstated {f : BitVec 3} : OpMode.ofField f = none ↔ f = 6 ∨ f = 7 := by
  revert f
  decide

section
variable {f : BitVec 3} (h : f = 6 ∨ f = 7) (arm : OpMode)
include h

theorem modeLaw_refuse : modeLaw .refuse arm f = .refuse := by
  rw [modeLaw, ofField_unstated.mpr h]

theorem modeLaw_free : modeLaw .free arm f = .free := by
  rw [modeLaw, ofField_unstated.mpr h]

theorem modeLaw_sourceDefaultArms : modeLaw .sourceDefaultArms arm f = .row arm := by
  rw [modeLaw, ofField_unstated.mpr h]

/-- Mode 6 goes as mode 2 and mode 7 as mode 3, both of which reload on a rising edge of the gate. -/
theorem modeLaw_aliased :
    ∃ m, modeLaw .aliased arm f = .row m ∧ OpMode.ofField (f - 4) = some m ∧ m ≠ .mode0 ∧ m ≠ .mode4 := by
  obtain rfl | rfl := h <;> exact ⟨_, rfl, rfl, by decide, by decide⟩

end

theorem timeQuery_of_refuse {α : Type} {arm : OpMode} {row : OpMode → Nat → α} {free : α}
    (h : modeLaw p.mode67 arm x.mode = .refuse) (ht : x.countLoadTime ≤ t) :
    timeQuery p arm row free x t = .error .mode67 := by
  simp only [timeQuery, elapsed_of_le ht, h]

theorem timeQuery_of_free {α : Type} {arm : OpMode} {row : OpMode → Nat → α} {free : α}
    (h : modeLaw p.mode67 arm x.mode = .free) (ht : x.countLoadTime ≤ t) :
    timeQuery p arm row free x t = .ok free := by
  simp only [timeQuery, elapsed_of_le ht, h]

end

end Sys2Proof.Machine

namespace Sys2Proof.TimeModelProofs

open Sys2Proof.Machine

/-- Settles O3: the floor, and the Galois connection between it and the ceiling. -/
theorem elapsedTicks : Obligations.ElapsedTicks := by
  intro x t ht
  have hcast := ticksSince_cast ht
  exact ⟨_, elapsed_eq_ticksSince ht, hcast, fun k => by omega⟩

/-- Settles O7: the three answers of `next_ticks` under the conversion, whose fix-up makes each time a later one. -/
theorem nextTransitionConversion : Obligations.NextTransitionConversion := by
  intro p x t
  refine ⟨fun r h => nextTransition_of_error h, fun h => nextTransition_of_ok h, fun n h => ?_,
    fun h he => nextTransition_future he⟩
  rw [nextTransition_of_ok h, Option.map_some, tickTime_eq]

/-- Settles O8: the two floors cancel for the multiples of 596591 alone. -/
theorem tickTimeRoundTrip : Obligations.TickTimeRoundTrip := by
  intro n _
  split_ifs with h
  · exact timeToTicks_ticksToTime_of_dvd h
  · exact timeToTicks_ticksToTime_of_not_dvd h

/-- Settles O9: what the table gives is the next edge of OUT. -/
theorem nextTicksIsEarliestChange : Obligations.NextTicksIsEarliestChange := by
  intro m count d hc h2 h3
  have hedge := nextTicksAt_isNextEdge d hc h2 h3
  exact ⟨fun n hn => by rwa [hn] at hedge, hedge.none_iff⟩

/-- Settles O10: from a period's start OUT falls one tick on, and from anywhere else it rises at the period's end, one tick
before the tick given; at that tick the level differs from the one before, for the period is no shorter than 2. -/
theorem mode2NextTicksSkipsAnEdge : Obligations.Mode2NextTicksSkipsAnEdge := by
  intro count d n hc hn
  obtain ⟨q, hlo, hhi⟩ := exists_period (Nat.le_of_succ_le hc) d
  have hnext : (q + 1) * count = q * count + count := Nat.succ_mul q count
  rw [nextTicksAt_mode2_in_period hlo hhi, Option.some.injEq] at hn
  split_ifs at hn with hstart
  · refine ⟨⟨d + 1, by omega, by omega, ?_⟩, ?_⟩
    · rw [outAt_mode2_in_period hlo hhi, outAt_mode2_in_period (q := q) (by omega) (by omega), ne_eq, decide_eq_decide]
      omega
    · rw [outAt_mode2_in_period (q := q + 1) (by omega) (by omega),
        outAt_mode2_in_period (q := q) (d := n - 1) (by omega) (by omega), ne_eq, decide_eq_decide]
      omega
  · refine ⟨⟨q * count + count, by omega, by omega, ?_⟩, ?_⟩
    · rw [outAt_mode2_in_period hlo hhi, outAt_mode2_in_period (q := q + 1) (by omega) (by omega), ne_eq,
        decide_eq_decide]
      omega
    · rw [outAt_mode2_in_period (q := q + 1) (by omega) (by omega),
        outAt_mode2_in_period (q := q + 1) (d := n - 1) (by omega) (by omega), ne_eq, decide_eq_decide]
      omega

/-- Settles O11: both rows read the tick through its remainder, which a period leaves; mode 2 tells tick 0 apart. -/
theorem outIsPeriodic : Obligations.OutIsPeriodic := by
  intro count d hc
  refine ⟨?_, fun hd => ?_, ?_, ?_⟩
  · rw [outAt, outAt, Nat.add_mod_right]
  · have hne : d + count ≠ 0 ↔ d ≠ 0 := by omega
    rw [Bool.eq_iff_iff, outAt_mode2, outAt_mode2, Nat.add_mod_right, hne]
  · exact decide_eq_false (p := 0 % count = 0 ∧ 0 ≠ 0) fun h => h.2 rfl
  · exact decide_eq_true ⟨Nat.mod_self count, Nat.one_le_iff_ne_zero.mp hc⟩

/-- Settles O12: the time of tick `n` is rounded into tick `n - 1`, where the table still gives `n`, so that the fix-up
adds the nanosecond after which the tick has come. -/
theorem twoStepExpiry : Obligations.TwoStepExpiry := by
  intro p x t m n hm h2 hc hn hdvd
  have hload : x.countLoadTime ≤ t := timeQuery_ok hn
  rw [nextTicks_eq_nextTicksAt hm hload, Except.ok.injEq] at hn
  have hstored : x.countLoadTime ≤ x.countLoadTime + (ticksToTime n : Int) :=
    Int.le_add_of_nonneg_right (Int.natCast_nonneg _)
  have hticks : ticksSince x (x.countLoadTime + (ticksToTime n : Int)) = n - 1 :=
    (ticksSince_add _).trans (timeToTicks_ticksToTime_of_not_dvd hdvd)
  rw [← ticksToTime_cast]
  refine ⟨(elapsed_eq_ticksSince hstored).trans (congrArg _ hticks), ?_, ?_⟩
  · obtain ⟨hlt, huntil⟩ := nextTicksAt_until hc h2 hn
    rw [nextTransition_of_ok (nextTicks_eq_nextTicksAt hm hstored), hticks, huntil (n - 1) (by omega) (by omega),
      Option.map_some, tickTime_eq, ← ticksToTime_cast, if_pos le_rfl]
  · have hsucc : ticksSince x (x.countLoadTime + (ticksToTime n : Int) + 1) = n := by
      rw [add_assoc]
      exact (ticksSince_add (ticksToTime n + 1)).trans (timeToTicks_ticksToTime_succ n)
    exact (elapsed_eq_ticksSince (hstored.trans (Int.le_add_one le_rfl))).trans (congrArg _ hsucc)

/-- Settles O13: under each setting of MODE67 the law of a query in mode 6 or 7 is a refusal, the row of an operating mode
that another mode field has as well, or a free value. -/
theorem modes6And7FollowTheSetting : Obligations.Modes6And7FollowTheSetting := by
  intro p x t hm ht
  refine ⟨fun hp => ?_, fun hp => ?_, fun hp => ?_, fun hp => ?_⟩
  · have hlaw := fun arm => hp ▸ modeLaw_refuse hm arm
    exact ⟨timeQuery_of_refuse (hlaw _) ht, timeQuery_of_refuse (hlaw _) ht,
      nextTransition_of_error (timeQuery_of_refuse (hlaw _) ht)⟩
  · have hlaw := fun arm => hp ▸ modeLaw_sourceDefaultArms hm arm
    exact ⟨getCount_eq_of_row rfl rfl (hlaw _) (modeLaw_row rfl _ _),
      getOut_eq_of_row rfl rfl (hlaw _) (modeLaw_row rfl _ _),
      nextTransition_eq_of_row rfl rfl (hlaw _) (modeLaw_row rfl _ _)⟩
  · have hlaw : ∀ arm, ∃ m, modeLaw p.mode67 arm x.mode = .row m ∧ modeLaw p.mode67 arm (x.mode - 4) = .row m :=
      fun arm => by
        obtain ⟨m, hx, hm4, -, -⟩ := modeLaw_aliased hm arm
        exact ⟨m, hp ▸ hx, modeLaw_row hm4 _ _⟩
    obtain ⟨_, hx2, hy2⟩ := hlaw .mode2
    obtain ⟨_, hx0, hy0⟩ := hlaw .mode0
    exact ⟨getCount_eq_of_row rfl rfl hx2 hy2, getOut_eq_of_row rfl rfl hx0 hy0,
      nextTransition_eq_of_row rfl rfl hx0 hy0⟩
  · have hlaw := fun arm => hp ▸ modeLaw_free hm arm
    exact ⟨_, _, _, timeQuery_of_free (hlaw _) ht, BitVec.isLt _, timeQuery_of_free (hlaw _) ht,
      nextTransition_of_ok (timeQuery_of_free (hlaw _) ht)⟩

end Sys2Proof.TimeModelProofs
end

section
/-! PROOFS. Frames: what an effect leaves of the parameters, of other channels, of the gates and of the schedule, and the
obligations about them (10_state.md R10, 44_irq_scheduler.md R140, R141, 60_exceptions.md R157). -/

namespace Sys2Proof.Machine

section
variable {i : Instr} {s t : State}

theorem Effect.keeps_gates (h : Effect i s t) (hbus : i.onBus = true) (c : Chan) : (t.ch c).gate = (s.ch c).gate := by
  cases h with
  | edit y r _ _ gate => exact (congrArg Channel.gate (State.withChannels_ch s y c)).trans (gate hbus c)
  | timed d now y line timer _ _ gate =>
    rw [State.timed_ch]
    revert c
    exact (Function.forall_update_iff s.ch fun c z => z.gate = (s.ch c).gate).mpr ⟨gate hbus, fun _ _ => rfl⟩
  | cancel => rfl
  | reset hi => subst hi; cases hbus

theorem Effect.keeps_other_channels {c d : Chan} (h : Effect i s t) (hc : channelOf i = some c) (hd : d ≠ c) :
    t.ch d = s.ch d := by
  cases h with
  | edit y r _ _ _ separate => exact (State.withChannels_ch s y d).trans (separate c hc d hd)
  | timed e now y line timer _ _ _ separate =>
    obtain rfl := separate c hc
    rw [State.timed_ch, Function.update_of_ne hd]
  | cancel => rfl
  | reset hi => subst hi; cases hc

theorem Effect.keeps_line_of_other {c : Chan} (h : Effect i s t) (hc : channelOf i = some c) (h0 : c ≠ .ch0) :
    t.irq = s.irq ∧ t.timer = s.timer := by
  cases h with
  | edit => exact ⟨rfl, rfl⟩
  | timed e now y line timer _ passed _ separate =>
    obtain rfl := separate c hc
    exact (passed.other h0).2
  | cancel hi | reset hi => subst hi; cases hc

/-- Channels 1 and 2 have no scheduler, so that nothing moves their next transition time (43_gate_and_api.md R138). -/
theorem Effect.keeps_next_of_other {c : Chan} (h : Effect i s t) (h0 : c ≠ .ch0) :
    (t.ch c).nextTransitionTime = (s.ch c).nextTransitionTime := by
  cases h with
  | edit y r _ times => exact (congrArg Channel.nextTransitionTime (State.withChannels_ch s y c)).trans (times c).2
  | timed d now y line timer _ passed =>
    rw [State.timed_ch]
    by_cases hd : c = d
    · subst hd
      rw [Function.update_self, (passed.other h0).1]
    · rw [Function.update_of_ne hd]
  | cancel => rfl
  | reset =>
    cases c with
    | ch0 => exact absurd rfl h0
    | ch1 | ch2 => rfl

/-- An operation that R141 does not name leaves the schedule, but for the timer that HPET.DISABLE cancels. -/
theorem Effect.keeps_schedule (h : Effect i s t) (hpass : mayRunPass s i = false) :
    t.irq = s.irq ∧ t.ch0.nextTransitionTime = s.ch0.nextTransitionTime ∧ (i ≠ .hpetDisable → t.timer = s.timer) := by
  cases h with
  | edit y r _ times => exact ⟨rfl, (times .ch0).2, fun _ => rfl⟩
  | timed c now y line timer _ passed _ _ pass =>
    have hc : c ≠ .ch0 := of_decide_eq_false (pass.symm.trans hpass)
    obtain ⟨-, hline, htimer⟩ := passed.other hc
    refine ⟨hline, ?_, fun _ => htimer⟩
    cases c with
    | ch0 => exact absurd rfl hc
    | ch1 | ch2 => rfl
  | cancel hi => exact ⟨rfl, rfl, fun hne => absurd hi hne⟩
  | reset hi => subst hi; cases hpass

/-- An operation that R141 names leaves line, timer and next transition time as a pass at its time computes them. -/
theorem Effect.schedule_of_pass (h : Effect i s t) (hpass : mayRunPass s i = true)
    (hgate : ∀ level, i = .gate .ch0 level → OpMode.ofField s.ch0.mode ≠ none) :
    ∃ now, passTime s i = some now ∧ getOut t.params t.ch0 now = .ok t.irq ∧
      nextTransition t.params t.ch0 now = .ok t.timer ∧ t.ch0.nextTransitionTime = t.timer := by
  cases h with
  | edit y r _ _ _ _ nopass =>
    obtain ⟨level, hi, hm⟩ := nopass hpass
    exact absurd hm (hgate level hi)
  | timed c now y line timer _ passed _ _ pass time =>
    obtain rfl : c = .ch0 := of_decide_eq_true (pass.symm.trans hpass)
    obtain ⟨hnext, htrans, hout⟩ := passed.pass rfl
    exact ⟨now, time, hout, htrans, hnext⟩
  | cancel hi => subst hi; cases hpass
  | reset hi =>
    subst hi
    exact ⟨s.clock, rfl, mode3_getOut rfl rfl, mode3_nextTransition rfl rfl, rfl⟩

theorem Effect.timer_of_line_change (h : Effect i s t) (hline : t.irq ≠ s.irq) :
    t.timer = t.ch0.nextTransitionTime := by
  cases h with
  | edit | cancel => exact absurd rfl hline
  | timed c now y line timer _ passed =>
    cases c with
    | ch0 => exact (passed.pass rfl).1.symm
    | ch1 | ch2 =>
      obtain ⟨-, hsame, -⟩ := passed.other (by decide)
      exact absurd hsame hline
  | reset => rfl

end

end Sys2Proof.Machine

namespace Sys2Proof.FrameProofs

open Sys2Proof.Machine

/-- Settles O44: a pass is the one effect that moves the schedule, and it leaves it as computed. -/
theorem onlyPassesMoveTheLine : Obligations.OnlyPassesMoveTheLine := by
  intro i s t h
  have heff := exec_effect h
  exact ⟨heff.keeps_schedule, heff.schedule_of_pass, heff.timer_of_line_change,
    heff.keeps_next_of_other (c := .ch1) (by decide), heff.keeps_next_of_other (c := .ch2) (by decide)⟩

/-- Settles O45: an effect edits the channel that its operation names, and the schedule only on channel 0. -/
theorem channelsAreSeparate : Obligations.ChannelsAreSeparate :=
  fun _ _ _ _ hc h => ⟨fun _ => (exec_effect h).keeps_other_channels hc, (exec_effect h).keeps_line_of_other hc⟩

/-- Settles O46: of the four effects only those of named events store a gate. -/
theorem guestCannotMoveTheGate : Obligations.GuestCannotMoveTheGate :=
  fun _ _ _ hbus h => (exec_effect h).keeps_gates hbus

/-- Settles O47: no effect assigns one of the three fields. -/
theorem parametersAndInputsAreKept : Obligations.ParametersAndInputsAreKept :=
  fun _ _ _ h => (exec_effect h).keeps_inputs

/-- Settles O32: the form common to the nine reads. -/
theorem readsChangeOnlyTheirFlags : Obligations.ReadsChangeOnlyTheirFlags := by
  intro i c s t hi hc h
  obtain ⟨q, k, l, b, -, -, rfl⟩ := counterRead_next hi hc h
  exact ⟨q, k, l, b, rfl⟩

/-- Settles O35: a write holds its byte or loads, and only a load reschedules the channel. -/
theorem writesChangeOnlyTheirFields : Obligations.WritesChangeOnlyTheirFields := by
  intro i c s t hi hc h
  obtain ⟨val, -, -, rfl⟩ | ⟨-, v, q, e, line, timer, -, -, passed, rfl⟩ := counterWrite_next hi hc h
  · refine ⟨(s.ch c).count, (s.ch c).countLoadTime, .word1, val, (s.ch c).nextTransitionTime, s.irq, s.timer, ?_,
      fun _ => ⟨rfl, rfl, rfl⟩⟩
    cases c <;> rfl
  · exact ⟨_, _, q, _, e, line, timer, rfl, passed.other⟩

end Sys2Proof.FrameProofs
end

section
/-! PROOFS. Latches, read-backs and the reads that serve them (41_control_word.md R100 to R105, 42_counter_port.md R117,
R128), and the obligations about them. -/

namespace Sys2Proof.Machine

/-! ### One channel of a read-back -/

section
variable {c : Chan} {r : ReadBack} {s t : State}

/-- What a read-back that ran has done to a channel it selects. -/
theorem readBack_selected (h : exec (.cwReadback r) s = .next t) (hsel : r.selects c = true) :
    ∃ n o, (r.count = true → (s.ch c).countLatched = 0 → getCount s.params (s.ch c) s.clock = .ok n) ∧
      (r.status = true → (s.ch c).statusLatched = false → getOut s.params (s.ch c) s.clock = .ok o) ∧
      latchedChannel r (s.ch c) n o = t.ch c := by
  have hc := (exec_cwReadback_eq_next.mp h).1 c
  rwa [hsel, readBackChannel_selected] at hc

theorem readBack_unselected (h : exec (.cwReadback r) s = .next t) (hsel : r.selects c = false) : t.ch c = s.ch c := by
  have hc := (exec_cwReadback_eq_next.mp h).1 c
  rw [hsel, readBackChannel_unselected] at hc
  exact hc.symm

/-- A read-back changes nothing if it leaves every channel, which it then does without a query. -/
theorem readBack_of_unchanged
    (h : ∀ d, readBackChannel s.params r (r.selects d) (s.ch d) s.clock = .ok (s.ch d)) :
    exec (.cwReadback r) s = .next s := exec_cwReadback_eq_next.mpr ⟨h, rfl⟩

/-- The time model answers for a selected channel at the time of a read-back, so both queries do. -/
theorem readBack_of_answers {n : Chan → Nat} {o : Chan → Bool}
    (h : ∀ d, r.selects d = true →
      getCount s.params (s.ch d) s.clock = .ok (n d) ∧ getOut s.params (s.ch d) s.clock = .ok (o d)) :
    exec (.cwReadback r) s =
      .next (s.withChannels fun d => if r.selects d then latchedChannel r (s.ch d) (n d) (o d) else s.ch d) := by
  refine exec_cwReadback_eq_next.mpr ⟨fun d => ?_, rfl⟩
  rw [State.withChannels_ch]
  cases hsel : r.selects d with
  | true => exact readBackChannel_selected.mpr ⟨_, _, fun _ _ => (h d hsel).1, fun _ _ => (h d hsel).2, rfl⟩
  | false => exact readBackChannel_unselected.mpr rfl

end

/-! ### The status byte (30_encoding.md R66) -/

theorem statusByte_bit7 (o : Bool) (rw : BitVec 2) (mode : BitVec 3) (bcd : Bool) :
    (statusByte o rw mode bcd).getLsbD 7 = o := by
  revert o rw mode bcd
  decide

/-- Below OUT and the zero bit the status byte is the word that programmed the channel, whose channel field is cut off. -/
theorem statusByte_low (o : Bool) (c : Chan) (a : Access) (mode : BitVec 3) (bcd : Bool) :
    statusByte o a.toBits mode bcd &&& 0x3F = modeByte c a mode bcd &&& 0x3F := by
  have hlow : ∀ (o : Bool) (sc rw : BitVec 2) (mode : BitVec 3) (bcd : Bool),
      statusByte o rw mode bcd &&& 0x3F = (sc ++ rw ++ mode ++ BitVec.ofBool bcd : BitVec 8) &&& 0x3F := by decide
  exact hlow o c.toBits a.toBits mode bcd

/-! ### The view a read takes (42_counter_port.md R117) -/

section
variable {c : Chan} {s : State}

theorem select_rdCnt_status (h : (s.ch c).statusLatched = true) : select s (.rdCnt c) = .rdStatus c :=
  select_of_whenHolds (i := .rdStatus c) h

theorem select_rdCnt_latchWord0 (hst : (s.ch c).statusLatched = false) (hk : (s.ch c).countLatched = 3) :
    select s (.rdCnt c) = .rdLatchWord0 c :=
  select_of_whenHolds (i := .rdLatchWord0 c) (latchView_iff.mpr ⟨hst, hk⟩)

theorem select_rdCnt_latchMsb (hst : (s.ch c).statusLatched = false) (hk : (s.ch c).countLatched = 2) :
    select s (.rdCnt c) = .rdLatchMsb c :=
  select_of_whenHolds (i := .rdLatchMsb c) (latchView_iff.mpr ⟨hst, hk⟩)

theorem select_rdCnt_live (hst : (s.ch c).statusLatched = false) (hk : (s.ch c).countLatched = 0) :
    select s (.rdCnt c) = selectLive (s.ch c) c := by
  simp [select, selectRead, hst, hk]

end

/-! ### The reads of what is latched -/

@[simp] theorem State.ch_clock (s : State) (now : Int) (c : Chan) : ({ s with clock := now } : State).ch c = s.ch c := by
  cases c <;> rfl

theorem readLatched_ch (half : Nat → Byte) (k : BitVec 2) (c : Chan) (s : State) :
    (readLatched half k c s).ch c = { s.ch c with countLatched := k } := by
  rw [readLatched, State.returning_ch, State.setCh_ch_self]

/-! What each such read leaves of a channel known to be `x`, and what it returns. -/

section
variable {c : Chan} {x : Channel} {s t : State}

theorem read_status_next (hx : s.ch c = x) (hst : x.statusLatched = true) (h : exec (select s (.rdCnt c)) s = .next t) :
    t.ch c = { x with statusLatched := false } ∧ t.result = some (.byte x.status) := by
  subst hx
  rw [select_rdCnt_status hst, exec_rdStatus_eq_next] at h
  obtain ⟨-, rfl⟩ := h
  rw [State.returning_ch, State.setCh_ch_self]
  exact ⟨rfl, rfl⟩

theorem read_latchWord0_next (hx : s.ch c = x) (hst : x.statusLatched = false) (hk : x.countLatched = 3)
    (h : exec (select s (.rdCnt c)) s = .next t) :
    t.ch c = { x with countLatched := 2 } ∧ t.result = some (.byte (lowByte x.latchedCount.toNat)) := by
  subst hx
  rw [select_rdCnt_latchWord0 hst hk, exec_rdLatchWord0_eq_next] at h
  obtain ⟨-, rfl⟩ := h
  exact ⟨readLatched_ch _ _ _ _, rfl⟩

theorem read_latchMsb_next (hx : s.ch c = x) (hst : x.statusLatched = false) (hk : x.countLatched = 2)
    (h : exec (select s (.rdCnt c)) s = .next t) :
    t.ch c = { x with countLatched := 0 } ∧ t.result = some (.byte (highByte x.latchedCount.toNat)) := by
  subst hx
  rw [select_rdCnt_latchMsb hst hk, exec_rdLatchMsb_eq_next] at h
  obtain ⟨-, rfl⟩ := h
  exact ⟨readLatched_ch _ _ _ _, rfl⟩

end

/-- The two bytes of a snapshot spell the number modulo 2^16 (41_control_word.md R100). -/
theorem snapshot_bytes (n : Nat) :
    (lowByte (snapshot n).toNat).toNat + 256 * (highByte (snapshot n).toNat).toNat = n % 65536 := by
  rw [lowByte_eq_mod, highByte_eq_div_mod, snapshot]
  simp only [BitVec.toNat_ofNat]
  omega

/-! ### Latches that take nothing -/

theorem exec_cwLatch_pending {c : Chan} {s : State} (h : (s.ch c).countLatched ≠ 0) : exec (.cwLatch c) s = .next s :=
  exec_cwLatch_eq_next.mpr ⟨_, latchCount_pending h _ _, State.setCh_ch s c⟩

/-- A selected channel is kept where all that is asked for is pending. -/
theorem readBackChannel_pending {p : Params} {r : ReadBack} {x : Channel} {now : Int}
    (hcount : r.count = true → x.countLatched ≠ 0) (hstatus : r.status = true → x.statusLatched = true) :
    readBackChannel p r true x now = .ok x := by
  have hc : ¬ (r.count = true ∧ x.countLatched = 0) := fun h => hcount h.1 h.2
  have hs : ¬ (r.status = true ∧ x.statusLatched = false) := fun h => by simp [hstatus h.1] at h
  have hl : (x.statusLatched || r.status) = x.statusLatched := by
    cases hrs : r.status with
    | false => exact Bool.or_false _
    | true => rw [hstatus hrs]; rfl
  refine readBackChannel_selected.mpr ⟨0, false, fun h1 h2 => absurd ⟨h1, h2⟩ hc, fun h1 h2 => absurd ⟨h1, h2⟩ hs, ?_⟩
  simp only [latchedChannel, if_neg hc, if_neg hs, hl]

theorem selects_decide (c d : Chan) (count status : Bool) :
    (⟨count, status, decide (c = .ch0), decide (c = .ch1), decide (c = .ch2)⟩ : ReadBack).selects d = decide (c = d) := by
  cases d <;> rfl

/-! ### What control writes leave -/

/-- The fields of a channel that no control-port operation touches (41_control_word.md R105). -/
def Channel.SameSchedule (x y : Channel) : Prop :=
  y.nextTransitionTime = x.nextTransitionTime ∧ y.count = x.count ∧ y.countLoadTime = x.countLoadTime ∧
    y.gate = x.gate ∧ y.writeLatch = x.writeLatch

theorem Channel.SameSchedule.refl (x : Channel) : x.SameSchedule x := ⟨rfl, rfl, rfl, rfl, rfl⟩

theorem setCh_sameSchedule {c : Chan} {s : State} {y : Channel} (h : (s.ch c).SameSchedule y) (d : Chan) :
    (s.ch d).SameSchedule ((s.setCh c y).ch d) := by
  rw [State.setCh_eq_withChannels, State.withChannels_ch]
  revert d
  exact (Function.forall_update_iff s.ch _).mpr ⟨h, fun d _ => .refl (s.ch d)⟩

theorem readBack_sameSchedule {r : ReadBack} {s t : State} (h : exec (.cwReadback r) s = .next t) (d : Chan) :
    (s.ch d).SameSchedule (t.ch d) := by
  cases hsel : r.selects d with
  | false => exact readBack_unselected h hsel ▸ .refl _
  | true =>
    obtain ⟨n, o, -, -, hd⟩ := readBack_selected h hsel
    exact hd ▸ ⟨rfl, rfl, rfl, rfl, rfl⟩

end Sys2Proof.Machine

namespace Sys2Proof.LatchProofs

open Sys2Proof.Machine

/-- Settles O16: the two cases of the latch of one channel. -/
theorem cwLatchResult : Obligations.CwLatchResult := by
  refine fun c s => ⟨exec_cwLatch_pending, fun hk hload hans => ?_⟩
  obtain ⟨n, hn⟩ := getCount_answers hans hload
  exact ⟨n, hn, exec_cwLatch_eq_next.mpr ⟨_, latchCount_of hk hn, rfl⟩⟩

/-- Settles O17: a latch of a programmed channel leaves one pending, for `rw_mode` is not 0, and a pending latch is kept. -/
theorem secondLatchIsIgnored : Obligations.SecondLatchIsIgnored := by
  intro c s t later hrw h
  have hpending : (({ t with clock := later } : State).ch c).countLatched ≠ 0 := by
    obtain ⟨y, hy, ht⟩ := exec_cwLatch_eq_next.mp h
    rw [State.ch_clock, ← ht, State.setCh_ch_self]
    obtain ⟨hk, rfl⟩ | ⟨-, n, -, rfl⟩ := latchCount_ok hy
    · exact hk
    · exact hrw
  refine ⟨exec_cwLatch_pending hpending, readBack_of_unchanged fun d => ?_⟩
  rw [selects_decide]
  by_cases hd : c = d
  · subst hd
    rw [decide_eq_true rfl]
    exact readBackChannel_pending (fun _ => hpending) nofun
  · rw [decide_eq_false hd]
    exact readBackChannel_unselected.mpr rfl

/-- Settles O18: a selected channel is kept where nothing is asked for, and where the model answers each selected channel
takes what its own queries give. -/
theorem cwReadbackResult : Obligations.CwReadbackResult := by
  intro r s
  refine ⟨fun hnone => readBack_of_unchanged fun d => ?_, fun hans => ?_⟩
  · cases hsel : r.selects d with
    | false => exact readBackChannel_unselected.mpr rfl
    | true =>
      obtain ⟨hc, hs⟩ := hnone.resolve_left fun hall => by simp [hall d] at hsel
      exact readBackChannel_pending (fun h => by simp [hc] at h) (fun h => by simp [hs] at h)
  · have hquery : ∀ d, ∃ n o, r.selects d = true →
        getCount s.params (s.ch d) s.clock = .ok n ∧ getOut s.params (s.ch d) s.clock = .ok o := fun d => by
      by_cases hsel : r.selects d = true
      · obtain ⟨hload, ha⟩ := hans d hsel
        obtain ⟨n, hn⟩ := getCount_answers ha hload
        obtain ⟨o, ho⟩ := getOut_answers ha hload
        exact ⟨n, o, fun _ => ⟨hn, ho⟩⟩
      · exact ⟨0, false, fun h => absurd h hsel⟩
    choose n o hno using hquery
    exact ⟨n, o, _, hno, readBack_of_answers hno, rfl, fun d => State.withChannels_ch s _ d⟩

/-- Settles O19: the status taken is the byte of OUT and the fields that the control word has just set. -/
theorem statusRepeatsControlWord : Obligations.StatusRepeatsControlWord := by
  intro c a mode bcd r s t u hmode hst hsel hrs hback
  obtain rfl := Host.Outcome.next.inj hmode
  obtain ⟨n, o, -, ho, hu⟩ := readBack_selected hback hsel
  rw [State.setCh_ch_self] at ho hu ⊢
  have hstatus : (u.ch c).status = statusByte o a.toBits mode bcd := hu ▸ if_pos ⟨hrs, hst⟩
  refine ⟨?_, ?_, ?_, ?_⟩
  · rw [← hu]
    exact (congrArg (_ || ·) hrs).trans (Bool.or_true _)
  · rw [hstatus, statusByte_low]
  · rw [hstatus, statusByte_bit6]
  · rw [hstatus, statusByte_bit7]
    exact ho hrs hst

/-- Settles O20: no control write touches line or timer, and the channels keep the fields of R105 one by one. -/
theorem controlWritesKeepTheSchedule : Obligations.ControlWritesKeepTheSchedule := by
  intro i s t hi h
  cases i with
  | cwMode c a mode bcd =>
    obtain rfl := Host.Outcome.next.inj h
    exact ⟨State.setCh_irq s c _, State.setCh_timer s c _, State.setCh_result s c _,
      setCh_sameSchedule ⟨rfl, rfl, rfl, rfl, rfl⟩⟩
  | cwLatch c =>
    obtain ⟨y, hy, rfl⟩ := exec_cwLatch_eq_next.mp h
    obtain ⟨l, k, -, rfl⟩ := latchCount_next hy
    exact ⟨State.setCh_irq s c _, State.setCh_timer s c _, State.setCh_result s c _,
      setCh_sameSchedule ⟨rfl, rfl, rfl, rfl, rfl⟩⟩
  | cwReadback r =>
    have ht := (exec_cwReadback_eq_next.mp h).2
    exact ⟨ht ▸ rfl, ht ▸ rfl, ht ▸ rfl, readBack_sameSchedule h⟩
  | _ => cases hi

/-- Settles O33: the latch leaves the word pending, the first read serves its low byte and leaves the high one. -/
theorem latchedReadIsOneSnapshot : Obligations.LatchedReadIsOneSnapshot := by
  intro c s t u v n t1 t2 hst hk hrw hn hlatch h1 h2
  have ht : t.ch c = { s.ch c with latchedCount := snapshot n, countLatched := (s.ch c).rwMode } := by
    obtain ⟨y, hy, rfl⟩ := exec_cwLatch_eq_next.mp hlatch
    rw [latchCount_of hk hn, Except.ok.injEq] at hy
    rw [State.setCh_ch_self, hy]
  obtain ⟨hu, hlo⟩ := read_latchWord0_next ((State.ch_clock t t1 c).trans ht) hst hrw h1
  obtain ⟨hv, hhi⟩ := read_latchMsb_next ((State.ch_clock u t2 c).trans hu) hst rfl h2
  exact ⟨_, _, hlo, hhi, snapshot_bytes n, by rw [hv], by rw [hv]⟩

/-- Settles O34: status first, then the two bytes of the word, then nothing is pending. -/
theorem statusIsReadBeforeCount : Obligations.StatusIsReadBeforeCount := by
  intro c r s t u v w hst hk hrw hsel hrc hrs hback h1 h2 h3
  obtain ⟨n, o, -, -, ht⟩ := readBack_selected hback hsel
  have htk : (t.ch c).countLatched = 3 := ht ▸ (if_pos ⟨hrc, hk⟩).trans hrw
  have hts : (t.ch c).statusLatched = true := ht ▸ (congrArg (_ || ·) hrs).trans (Bool.or_true _)
  obtain ⟨hu, hstatus⟩ := read_status_next rfl hts h1
  obtain ⟨hv, hlo⟩ := read_latchWord0_next hu rfl htk h2
  obtain ⟨hw, hhi⟩ := read_latchMsb_next hv rfl rfl h3
  refine ⟨select_rdCnt_status hts, hstatus, select_rdCnt_latchWord0 ?_ ?_, hlo, select_rdCnt_latchMsb ?_ ?_, hhi,
    select_rdCnt_live ?_ ?_⟩
  · exact congrArg Channel.statusLatched hu
  · exact (congrArg Channel.countLatched hu).trans htk
  · exact congrArg Channel.statusLatched hv
  · exact congrArg Channel.countLatched hv
  · exact congrArg Channel.statusLatched hw
  · exact congrArg Channel.countLatched hw

end Sys2Proof.LatchProofs
end

section
/-! PROOFS. Counter accesses of an unprogrammed channel, the schedule a count write leaves, and the round trip of a word
(42_counter_port.md R110, R116, R126, R128), and the obligations about them. -/

namespace Sys2Proof.Machine

/-! ### The tables at the load (40_time_model.md R87 to R95) -/

/-- The first tick of the table of a mode. -/
def firstTick (m : OpMode) (count : Nat) : Nat :=
  match m with
  | .mode2 => count + 1
  | .mode3 => (count + 1) / 2
  | .mode0 | .mode1 | .mode4 | .mode5 => count

section
variable {m : OpMode} {count : Nat}

theorem firstTick_pos (hc : 1 ≤ count) : 1 ≤ firstTick m count := by
  cases m <;> simp only [firstTick] <;> omega

theorem nextTicksAt_zero (hc : 1 ≤ count) : nextTicksAt m count 0 = some (firstTick m count) := by
  have hperiod : 0 * count = 0 := Nat.zero_mul count
  cases m with
  | mode0 | mode1 | mode4 | mode5 => exact if_pos hc
  | mode2 =>
    rw [nextTicksAt_mode2_in_period (q := 0) (by omega) (by omega), if_neg fun h => h.2 rfl, hperiod, Nat.zero_add]
    rfl
  | mode3 =>
    rw [nextTicksAt_mode3_in_period (q := 0) (by omega) (by omega), if_pos (by omega), hperiod, Nat.zero_add]
    rfl

theorem outAt_zero (hc : 1 ≤ count) : outAt m count 0 = true ↔ m = .mode1 ∨ m = .mode3 := by
  cases m with
  | mode0 | mode1 | mode3 | mode4 | mode5 => simp; omega
  | mode2 => simp

end

section
variable {p : Params} {x : Channel} {m : OpMode}

theorem getOut_at_load {b : Bool} (h : getOut p x x.countLoadTime = .ok b) (hm : OpMode.ofField x.mode = some m)
    (hc : 1 ≤ x.count) : b = true ↔ m = .mode1 ∨ m = .mode3 := by
  have hticks : ticksSince x x.countLoadTime = 0 := by simp [ticksSince]
  rw [getOut_eq_outAt hm le_rfl, hticks, Except.ok.injEq] at h
  rw [← h, outAt_zero hc]

/-- At the load the fix-up does nothing, for a tick of at least 1 lies 838 ns on. -/
theorem nextTransition_at_load {e : Option Int} (h : nextTransition p x x.countLoadTime = .ok e)
    (hm : OpMode.ofField x.mode = some m) (hc : 1 ≤ x.count) :
    e = some (x.countLoadTime + (firstTick m x.count : Int) * 1000000000 / 1193182) := by
  have hticks : ticksSince x x.countLoadTime = 0 := by simp [ticksSince]
  have hpos := firstTick_pos (m := m) hc
  rw [nextTransition_of_ok (nextTicks_eq_nextTicksAt hm le_rfl), hticks, nextTicksAt_zero hc, Option.map_some, tickTime_eq,
    if_neg (by omega), Except.ok.injEq] at h
  exact h.symm

end

/-! ### An unprogrammed channel (R116, R126) -/

theorem exec_wrCnt_refused {c : Chan} {val : Byte} {s : State} (hw : (s.ch c).writeState = .unprogrammed)
    (hp : s.params.unprog = .refuse) : exec (.wrCnt c val) s = .refused .unprogrammed := by
  change execWrCnt c val s = _
  rw [execWrCnt, decide_eq_true hw, hp]
  rfl

theorem exec_rdCnt_refused {c : Chan} {s : State} (hlive : liveAt (s.ch c) .unprogrammed = true)
    (hp : s.params.unprog = .refuse) : exec (.rdCnt c) s = .refused .unprogrammed := by
  change execRdCnt c s = _
  rw [execRdCnt, hlive, hp]
  rfl

/-! ### The word a two-byte write spells (R128 item 1) -/

theorem countOfValue_word (lo hi : Byte) :
    countOfValue (wordValue lo hi) = if lo = 0 ∧ hi = 0 then 65536 else lo.toNat + 256 * hi.toNat := by
  have hzero : lo.toNat + 256 * hi.toNat = 0 ↔ lo = 0 ∧ hi = 0 := by
    rw [← BitVec.toNat_inj, ← BitVec.toNat_inj]
    simp
  simp only [countOfValue, wordValue_eq_add, hzero]

/-- The channel after the second byte of a word. -/
theorem exec_wrCntWord1_channel {c : Chan} {val : Byte} {s t : State} (h : exec (.wrCntWord1 c val) s = .next t) :
    (t.ch c).count = countOfValue (wordValue (s.ch c).writeLatch val) ∧ (t.ch c).countLoadTime = s.clock ∧
      (t.ch c).writeState = .word0 := by
  obtain ⟨-, u, hu, rfl⟩ := exec_wrCntWord1_eq_next.mp h
  obtain ⟨e, line, timer, -, rfl⟩ := load_next hu
  rw [State.setCh_ch_self, State.timed_ch, Function.update_self]
  exact ⟨rfl, rfl, rfl⟩

end Sys2Proof.Machine

namespace Sys2Proof.CounterPortProofs

open Sys2Proof.Machine

/-- Settles O24: UNPROG refuses, or the write is a Load of its byte. -/
theorem wrCntUnprogrammed : Obligations.WrCntUnprogrammed := by
  intro c val s hw v
  refine ⟨exec_wrCnt_refused hw, fun hp hc => exec_wrCnt_eq_next.mpr ⟨hw, hp, load_ne hc _ s⟩, ?_⟩
  rintro hp rfl hans
  obtain ⟨e, b, he, hb, hload⟩ := load_ch0_pass hans (lsbValue val)
  exact ⟨e, b, he, hb, exec_wrCnt_eq_next.mpr ⟨hw, hp, hload⟩⟩

/-- Settles O30: UNPROG refuses, or the read returns the low byte of the live count and moves nothing. -/
theorem rdCntUnprogrammed : Obligations.RdCntUnprogrammed := by
  intro c s hst hk hq
  refine ⟨exec_rdCnt_refused (liveAt_iff.mpr ⟨⟨hst, hk⟩, hq⟩), fun hp hload hans => ?_⟩
  obtain ⟨n, hn⟩ := getCount_answers hans hload
  refine ⟨n, hn, ?_⟩
  rw [← lowByte_eq_mod]
  exact exec_rdCnt_eq_next.mpr ⟨⟨⟨hst, hk⟩, hq⟩, hp, readLive_same hq hn⟩

/-- Settles O25: each of the three writes loads, and the pass at the load reads the tables at tick 0. -/
theorem loadArmsTheTimer : Obligations.LoadArmsTheTimer := by
  intro i val s t m hi hm h
  have hloaded : LoadedFrom .ch0 s t := by
    obtain rfl | rfl | rfl := hi <;> exact (counterWrite_next rfl rfl h).resolve_left nofun |>.2
  obtain ⟨v, q, e, line, timer, hv, -, passed, rfl⟩ := hloaded
  obtain ⟨hnext, htrans, hout⟩ := passed.pass rfl
  have hc := (countOfValue_range hv).1
  refine ⟨hc, rfl, getOut_at_load hout hm hc, ?_, hnext⟩
  rw [nextTransition_at_load htrans hm hc]
  cases m <;> rfl

/-- Settles O26: the first byte waits in the write latch, which the second one finds there. -/
theorem twoByteWriteRoundTrip : Obligations.TwoByteWriteRoundTrip := by
  intro c lo hi s t u v later _ h1 h2 h3
  obtain ⟨-, ht⟩ := exec_wrCntWord0_eq_next.mp h1
  obtain ⟨hcount, hload, hw⟩ := exec_wrCntWord1_channel h2
  have hlatch : (t.ch c).writeLatch = lo := by rw [← ht, State.setCh_ch_self]
  rw [State.ch_clock t later c, hlatch, countOfValue_word] at hcount
  obtain rfl := Host.Outcome.next.inj h3
  exact ⟨hw, hload, congrArg (fun n => some (Result.count n)) hcount⟩

end Sys2Proof.CounterPortProofs
end

section
/-! PROOFS. The gate, the getters, the HPET hook that cancels, and the expiry (43_gate_and_api.md R130 to R136,
44_irq_scheduler.md R142, R143, R146), and the obligations about them. -/

namespace Sys2Proof.Machine

/-! ### When the time model refuses -/

theorem modeLaw_eq_refuse {p : Params} {x : Channel} {arm : OpMode} :
    modeLaw p.mode67 arm x.mode = .refuse ↔ ¬ Answers p x := by
  refine ⟨fun h ha => modeLaw_ne_refuse ha arm h, fun h => ?_⟩
  obtain ⟨hm, hp⟩ := not_or.mp h
  simp [modeLaw, not_not.mp hm, not_not.mp hp]

/-! ### Whether a gate event reloads -/

section
variable {p : Params} {x : Channel} {new : Bool}

theorem gateReloads_of_law {m : OpMode} (h : modeLaw p.mode67 .mode0 x.mode = .row m) :
    gateReloads p x new = .ok (decide (m ≠ .mode0 ∧ m ≠ .mode4) && risingEdge x.gate new) := by
  rw [gateReloads, h]
  cases m <;> rfl

theorem gateReloads_refused (h : ¬ Answers p x) : gateReloads p x new = .error .mode67 := by
  rw [gateReloads, modeLaw_eq_refuse.mpr h]

/-- Without an edge from 0 to 1 no row reloads. -/
theorem gateReloads_no_edge {m : OpMode} (h : modeLaw p.mode67 .mode0 x.mode = .row m)
    (hedge : x.gate = true ∨ new = false) : gateReloads p x new = .ok false := by
  have hno : risingEdge x.gate new = false := by
    obtain h1 | h0 := hedge
    · rw [risingEdge, h1]
      rfl
    · rw [risingEdge, h0, Bool.and_false]
  rw [gateReloads_of_law h, hno, Bool.and_false]

theorem gateReloads_edge {m : OpMode} (h : modeLaw p.mode67 .mode0 x.mode = .row m) (h0 : m ≠ .mode0) (h4 : m ≠ .mode4)
    (hgate : x.gate = false) : gateReloads p x true = .ok true := by
  rw [gateReloads_of_law h, decide_eq_true ⟨h0, h4⟩, hgate]
  rfl

end

/-! ### The two ways a gate event goes -/

section
variable {c : Chan} {level : Nat} {s : State}

theorem exec_gate_stores (hlevel : level ≤ 1) (hr : gateReloads s.params (s.ch c) (decide (level = 1)) = .ok false) :
    exec (.gate c level) s = .next (s.setCh c { s.ch c with gate := decide (level = 1) }) :=
  exec_gate_eq_next.mpr ⟨hlevel, false, hr, s, rfl, rfl⟩

/-- A reload of channels 1 and 2 stamps the load time; that of channel 0 ends in the pass of R140. -/
theorem exec_gate_reloads (hr : gateReloads s.params (s.ch c) true = .ok true) (hans : Answers s.params (s.ch c)) :
    (c ≠ .ch0 → exec (.gate c 1) s = .next (s.setCh c { s.ch c with countLoadTime := s.clock, gate := true })) ∧
    (c = .ch0 → ∃ e b,
      nextTransition s.params { s.ch0 with countLoadTime := s.clock } s.clock = .ok e ∧
      getOut s.params { s.ch0 with countLoadTime := s.clock } s.clock = .ok b ∧
      exec (.gate c 1) s = .next
        { s with
          irq := b
          timer := e
          ch0 := { s.ch0 with countLoadTime := s.clock, gate := true, nextTransitionTime := e } }) := by
  refine ⟨fun hc => ?_, ?_⟩
  · refine exec_gate_eq_next.mpr ⟨le_rfl, true, hr, _, gateReload_ne hc s, ?_⟩
    rw [storeGate, State.setCh_ch_self, State.setCh_setCh]
    rfl
  · rintro rfl
    obtain ⟨e, he⟩ := nextTransition_answers (x := { s.ch0 with countLoadTime := s.clock }) (t := s.clock) hans le_rfl
    obtain ⟨b, hb⟩ := getOut_answers (x := { s.ch0 with countLoadTime := s.clock }) (t := s.clock) hans le_rfl
    exact ⟨e, b, he, hb, exec_gate_eq_next.mpr ⟨le_rfl, true, hr, _, gateReload_ch0_of he hb, rfl⟩⟩

theorem exec_gate_level (h : 1 < level) : exec (.gate c level) s = .refused .gateLevel := by
  change execGate c level s = _
  rw [execGate, levelBit, if_neg (by omega), if_neg (by omega)]

theorem exec_gate_refused (hlevel : level ≤ 1) (h : ¬ Answers s.params (s.ch c)) :
    exec (.gate c level) s = .refused .mode67 := by
  change execGate c level s = _
  rw [execGate, levelBit_eq_some.mpr ⟨hlevel, rfl⟩]
  simp only [gateReloads_refused h]
  rfl

/-- A gate event changes the gate, and where it reloads the load time and what the pass of channel 0 changes. -/
theorem exec_gate_frame (hlevel : level ≤ 1) (hans : Answers s.params (s.ch c)) :
    ∃ l e b d,
      exec (.gate c level) s = .next
        { s.setCh c { s.ch c with countLoadTime := l, gate := decide (level = 1), nextTransitionTime := e } with
          irq := b, timer := d } ∧
      ((l = (s.ch c).countLoadTime ∧ e = (s.ch c).nextTransitionTime ∧ b = s.irq ∧ d = s.timer) ∨
        (l = s.clock ∧ (c ≠ .ch0 → e = (s.ch c).nextTransitionTime ∧ b = s.irq ∧ d = s.timer))) := by
  obtain ⟨reload, hr⟩ := gateReloads_answers hans (decide (level = 1))
  cases reload with
  | false =>
    refine ⟨_, _, s.irq, s.timer, ?_, .inl ⟨rfl, rfl, rfl, rfl⟩⟩
    rw [exec_gate_stores hlevel hr]
    cases c <;> rfl
  | true =>
    obtain ⟨u, hu⟩ := gateReload_answers (c := c) (s := s) (by rintro rfl; exact hans)
    obtain ⟨e, line, timer, passed, rfl⟩ := reschedule_passed (by rfl) hu
    refine ⟨s.clock, e, line, timer, exec_gate_eq_next.mpr ⟨hlevel, true, hr, _, hu, ?_⟩, .inr ⟨rfl, passed.other⟩⟩
    cases c <;> rfl

end

/-- A mode that has a row other than those of modes 0 and 4 (43_gate_and_api.md R130). -/
theorem ofField_reloading {f : BitVec 3} (h : f = 1 ∨ f = 2 ∨ f = 3 ∨ f = 5) :
    ∃ m, OpMode.ofField f = some m ∧ m ≠ .mode0 ∧ m ≠ .mode4 := by
  obtain rfl | rfl | rfl | rfl := h <;> exact ⟨_, rfl, by decide, by decide⟩

/-! ### The expiry -/

section
variable {s : State}

theorem exec_expire_not_armed (h : s.timer = none) : exec .expire s = .refused .expireNotArmed := by
  change execExpire s = _
  rw [execExpire, h]

theorem exec_expire_due {deadline t : Int} (htimer : s.timer = some deadline)
    (hnext : s.ch0.nextTransitionTime = some t) :
    exec .expire s = if deadline ≤ s.clock then answer (schedulerPass s t) else .refused .expireNotDue := by
  change execExpire s = _
  rw [execExpire, htimer, hnext]

end

end Sys2Proof.Machine

namespace Sys2Proof.GateAndApiProofs

open Sys2Proof.Machine

/-- Settles O37: in modes 1, 2, 3 and 5 a rising edge reloads; in modes 0 and 4, and without a rising edge, the row of the
mode does not. -/
theorem gateInOperatingModes : Obligations.GateInOperatingModes := by
  refine fun c s => ⟨fun hm hgate => ?_, fun level hlevel hcase => exec_gate_stores hlevel ?_⟩
  · obtain ⟨m, hrow, h0, h4⟩ := ofField_reloading hm
    exact exec_gate_reloads (gateReloads_edge (modeLaw_row hrow _ _) h0 h4 hgate) (.inl (by simp [hrow]))
  · obtain hm | hm | ⟨hm, hedge⟩ := hcase
    · exact gateReloads_row (m := .mode0) (hm ▸ rfl) _
    · exact gateReloads_row (m := .mode4) (hm ▸ rfl) _
    · obtain ⟨m, hrow⟩ := ofField_of_le_five hm
      exact gateReloads_no_edge (modeLaw_row hrow _ _) (hedge.imp id fun h => decide_eq_false (by omega))

/-- Settles O38: the law of `GATE` in modes 6 and 7 is a refusal, the row of mode 0, which never reloads, or that of mode 2
or 3, which does on a rising edge. -/
theorem gateRunsOrStops : Obligations.GateRunsOrStops := by
  refine fun c level s => ⟨exec_gate_frame, exec_gate_level, exec_gate_refused, fun hm => ⟨fun hp hlevel => ?_,
    fun hp hlevel hedge => ?_, fun hp hgate => ?_⟩⟩
  · have hlaw : modeLaw s.params.mode67 .mode0 (s.ch c).mode = .row .mode0 := hp ▸ modeLaw_sourceDefaultArms hm _
    exact exec_gate_stores hlevel (gateReloads_of_law hlaw)
  · obtain ⟨m, hlaw, -⟩ := modeLaw_aliased hm .mode0
    exact exec_gate_stores hlevel
      (gateReloads_no_edge (hp ▸ hlaw) (hedge.imp id fun h => decide_eq_false (by omega)))
  · obtain ⟨m, hlaw, -, h0, h4⟩ := modeLaw_aliased hm .mode0
    exact exec_gate_reloads (gateReloads_edge (hp ▸ hlaw) h0 h4 hgate) (.inr (by simp [hp]))

/-- Settles O39: a getter returns its field, and GET.OUT what the query answers. -/
theorem getterResults : Obligations.GetterResults := by
  refine fun c s => ⟨exec_getGate c s, exec_getCount c s, exec_getMode c s, fun hload hans => ?_⟩
  obtain ⟨b, hb⟩ := getOut_answers hans hload
  exact ⟨b, hb, exec_getOut_eq_next.mpr ⟨b, hb, rfl⟩⟩

/-- Settles O40: the one assignment of the hook disarms the expiry. -/
theorem hpetDisableResult : Obligations.HpetDisableResult :=
  fun s => ⟨exec_hpetDisable s, exec_expire_not_armed rfl⟩

/-- Settles O42: armed and due, the pass runs at the stored time, at which both queries answer. -/
theorem expireResult : Obligations.ExpireResult := by
  refine fun s => ⟨fun deadline t htimer hdue hnext hload hans => ?_, exec_expire_not_armed,
    fun deadline t htimer hnext hearly => ?_⟩
  · obtain ⟨e, he⟩ := nextTransition_answers hans hload
    obtain ⟨b, hb⟩ := getOut_answers hans hload
    exact ⟨e, b, he, hb, exec_expire_eq_next.mpr ⟨deadline, t, htimer, hnext, hdue, schedulerPass_of he hb⟩⟩
  · rw [exec_expire_due htimer hnext, if_neg (Int.not_le.mpr hearly)]

/-- Settles O43: the pass runs at the stored time, and a predicted time lies after the time of the query. -/
theorem expiryDeadlinesIncrease : Obligations.ExpiryDeadlinesIncrease := by
  intro s t now next hnow h hnext
  obtain ⟨_, now', -, hnow', -, hpass⟩ := exec_expire_eq_next.mp h
  obtain rfl := Option.some.inj (hnow.symm.trans hnow')
  obtain ⟨e, b, he, -, rfl⟩ := schedulerPass_ok hpass
  obtain rfl : e = some next := hnext
  exact ⟨nextTransition_future he, rfl⟩

end Sys2Proof.GateAndApiProofs
end

section
/-! PROOFS. Steps (20_memory.md R40, R42, R48, 30_encoding.md R61): the port access at the head of the list becomes an
operation or a refusal, and the obligations about it. -/

namespace Sys2Proof.Machine

/-! ### The port access -/

section
variable {p : Params}

/-- One byte to port `off` of the four is a transaction (20_memory.md R40). -/
theorem fetch_port {off : Nat} (h : off < 4) (write : Bool) (data : Nat) :
    fetch p ⟨write, p.ioBase + off, 1, data⟩ =
      .ok (transactionBytes write (BitVec.ofNat 2 off) (BitVec.ofNat 8 data)) := by
  have hoff : p.ioBase + off - p.ioBase = off := Nat.add_sub_cancel_left _ _
  rw [fetch, if_pos ⟨rfl, Nat.le_add_right _ _, hoff.symm ▸ h⟩, hoff]

theorem fetch_refused {a : PortAccess} (h : a.bytes ≠ 1 ∨ a.addr < p.ioBase ∨ p.ioBase + 4 ≤ a.addr) :
    fetch p a = .error .badPortAccess := by
  rw [fetch, if_neg (by omega)]

end

/-! ### One step -/

section
variable {s : State} {e : Event} {rest : List Event}

theorem step_idle (h : s.inbox = []) : step s = .next s := by
  rw [step, h]

theorem step_event (h : s.inbox = e :: rest) : step s = process s e rest := by
  rw [step, h]

/-- A named event runs as itself. -/
theorem step_named {ev : DeviceEvent} (h : s.inbox = e :: rest) (he : e.request = .named ev) :
    step s = exec ev.toInstr (arrive s e rest) := by
  rw [step_event h, process, he]
  rfl

/-- A byte access to one of the ports runs the form that the arrived state selects of what the access decodes to. -/
theorem step_port {off data : Nat} {write : Bool} {i : Instr} (h : s.inbox = e :: rest)
    (he : e.request = .port ⟨write, s.params.ioBase + off, 1, data⟩) (hoff : off < 4)
    (hi : decode (transactionBytes write (BitVec.ofNat 2 off) (BitVec.ofNat 8 data)) = .ok i) :
    step s = exec (select (arrive s e rest) i) (arrive s e rest) := by
  have hfetch := fetch_port (p := (arrive s e rest).params) hoff write data
  rw [arrive_params] at hfetch
  simp only [step_event h, process, he, requestInstr, portInstr, arrive_params, hfetch, hi]

theorem step_refused_access {a : PortAccess} (h : s.inbox = e :: rest) (he : e.request = .port a)
    (ha : a.bytes ≠ 1 ∨ a.addr < s.params.ioBase ∨ s.params.ioBase + 4 ≤ a.addr) : step s = .refused .badPortAccess := by
  simp only [step_event h, process, he, requestInstr, portInstr, arrive_params, fetch_refused ha]

end

end Sys2Proof.Machine

namespace Sys2Proof.StepProofs

open Sys2Proof.Machine

/-- Settles O53: the three kinds of step. -/
theorem stepRunsTheDecodedOperation : Obligations.StepRunsTheDecodedOperation := by
  refine ⟨fun s => step_idle, fun s e rest h => ⟨fun write off data i he hi => ?_, fun ev he => step_named h he⟩⟩
  exact step_port h he off.isLt (by rwa [BitVec.ofNat_toNat, BitVec.setWidth_eq, BitVec.ofNat_toNat, BitVec.setWidth_eq])

/-- Settles O54: the access is no transaction. -/
theorem badPortAccessStops : Obligations.BadPortAccessStops :=
  fun _ _ _ _ h ha => step_refused_access h rfl ha

/-- Settles O31: offset 3 with direction read decodes to the refused read, whatever the data lines hold. -/
theorem rdCtrlStops : Obligations.RdCtrlStops := by
  refine fun s data wait rest => ⟨exec_rdCtrl s, ?_⟩
  rw [step_port (s := { s with inbox := _ }) rfl rfl (by decide) (decode_transactionBytes false 3 _)]
  exact exec_rdCtrl _

end Sys2Proof.StepProofs
end

section
/-! PROOFS. Refusals and progress (40_time_model.md R81, R99, 42_counter_port.md R111, R117, 60_exceptions.md R150): why a
query and every operation that makes one is refused, when an operation runs, and the obligations about both. -/

namespace Sys2Proof.Machine

/-! ### Answers and refusals -/

theorem map_eq_error {α β : Type} {k : Except Refusal α} {f : α → β} {r : Refusal} :
    k.map f = .error r ↔ k = .error r := by
  cases k <;> simp [Except.map]

theorem bind_eq_error {α β : Type} {k : Except Refusal α} {f : α → Except Refusal β} {r : Refusal} :
    k.bind f = .error r ↔ k = .error r ∨ ∃ a, k = .ok a ∧ f a = .error r := by
  cases k <;> simp [Except.bind]

theorem exists_ok_iff {α : Type} {k : Except Refusal α} : (∃ a, k = .ok a) ↔ ∀ r, k ≠ .error r := by
  cases k <;> simp

theorem answerWhen_eq_refused {b : Bool} {k : Except Refusal State} {r : Refusal} :
    answerWhen b k = .refused r ↔ (b = false ∧ r = .notSelected) ∨ (b = true ∧ k = .error r) := by
  cases b with
  | false => simp [answerWhen_false, eq_comm]
  | true => simp [answerWhen_true]

/-- The block raises no fault, so that an operation without a next state is refused. -/
theorem exists_refused {o : Host.Outcome State Fault Refusal} (h : ∀ t, o ≠ .next t) : ∃ r, o = .refused r := by
  cases o with
  | next t => exact absurd rfl (h t)
  | fault r => cases r
  | refused r => exact ⟨r, rfl⟩

/-! ### The queries -/

/-- Why a query of channel `x` at `t` is refused: it is made before the load, or the mode has no row and MODE67 no answer. -/
def RefusesQuery (p : Params) (x : Channel) (t : Int) (r : Refusal) : Prop :=
  (t < x.countLoadTime ∧ r = .timeBeforeLoad) ∨ (x.countLoadTime ≤ t ∧ ¬ Answers p x ∧ r = .mode67)

section
variable {p : Params} {x : Channel} {t : Int} {r : Refusal}

theorem timeQuery_eq_error {α : Type} {arm : OpMode} {row : OpMode → Nat → α} {free : α} :
    timeQuery p arm row free x t = .error r ↔ RefusesQuery p x t r := by
  by_cases ht : x.countLoadTime ≤ t
  · have hlt : ¬ t < x.countLoadTime := Int.not_lt.mpr ht
    by_cases ha : Answers p x
    · obtain ⟨a, hq⟩ := timeQuery_answers arm row free ha ht
      simp [RefusesQuery, hq, ha, hlt]
    · rw [timeQuery_of_refuse (modeLaw_eq_refuse.mpr ha) ht]
      simp [RefusesQuery, ha, hlt, ht, eq_comm]
  · have hlt : t < x.countLoadTime := Int.not_le.mp ht
    simp [RefusesQuery, timeQuery, elapsed, hlt, ht, eq_comm]

theorem getCount_eq_error : getCount p x t = .error r ↔ RefusesQuery p x t r := timeQuery_eq_error

theorem getOut_eq_error : getOut p x t = .error r ↔ RefusesQuery p x t r := timeQuery_eq_error

theorem nextTransition_eq_error : nextTransition p x t = .error r ↔ RefusesQuery p x t r :=
  map_eq_error.trans timeQuery_eq_error

/-- A query answers at or after the load, where MODE67 allows it. -/
theorem not_refusesQuery_iff : (∀ r, ¬ RefusesQuery p x t r) ↔ x.countLoadTime ≤ t ∧ Answers p x := by
  refine ⟨fun h => ⟨?_, ?_⟩, fun ⟨ht, ha⟩ r h => ?_⟩
  · exact Int.not_lt.mp fun hlt => h _ (.inl ⟨hlt, rfl⟩)
  · exact by_contra fun ha => h .mode67 ((le_or_gt x.countLoadTime t).elim (fun ht => .inr ⟨ht, ha, rfl⟩)
      fun hlt => absurd (.inl ⟨hlt, rfl⟩) (h .timeBeforeLoad))
  · obtain ⟨hlt, -⟩ | ⟨-, hna, -⟩ := h
    · exact absurd ht (Int.not_le.mpr hlt)
    · exact hna ha

theorem refusesQuery_before_load (h : t < x.countLoadTime) : RefusesQuery p x t .timeBeforeLoad := .inl ⟨h, rfl⟩

theorem refusesQuery_mode67 (ht : x.countLoadTime ≤ t) (ha : ¬ Answers p x) : RefusesQuery p x t .mode67 :=
  .inr ⟨ht, ha, rfl⟩

theorem RefusesQuery.eq_mode67 (h : RefusesQuery p x t r) (ht : x.countLoadTime ≤ t) : ¬ Answers p x ∧ r = .mode67 := by
  obtain ⟨hlt, -⟩ | ⟨-, ha⟩ := h
  · exact absurd ht (Int.not_le.mpr hlt)
  · exact ha

theorem RefusesQuery.ne_notSelected (h : RefusesQuery p x t r) : r ≠ .notSelected := by
  obtain ⟨-, rfl⟩ | ⟨-, -, rfl⟩ := h <;> decide

/-! ### The shared operations -/

theorem latchCount_eq_error : latchCount p x t = .error r ↔ x.countLatched = 0 ∧ RefusesQuery p x t r := by
  by_cases hk : x.countLatched = 0
  · rw [latchCount, if_pos hk, map_eq_error, getCount_eq_error, and_iff_right hk]
  · rw [latchCount_pending hk]
    exact iff_of_false nofun fun h => hk h.1

theorem latchStatus_eq_error : latchStatus p x t = .error r ↔ x.statusLatched = false ∧ RefusesQuery p x t r := by
  cases hk : x.statusLatched with
  | true => simp [latchStatus_pending hk]
  | false => simp [latchStatus, hk, map_eq_error, getOut_eq_error]

end

/-- A read-back takes the count or the status of a channel: it is asked for and none is pending (41_control_word.md R103). -/
def Takes (r : ReadBack) (x : Channel) : Prop :=
  (r.count = true ∧ x.countLatched = 0) ∨ (r.status = true ∧ x.statusLatched = false)

section
variable {s : State} {c : Chan} {t : Int} {r : Refusal}

theorem schedulerPass_eq_error : schedulerPass s t = .error r ↔ RefusesQuery s.params s.ch0 t r := by
  by_cases h : ∀ q, ¬ RefusesQuery s.params s.ch0 t q
  · obtain ⟨ht, ha⟩ := not_refusesQuery_iff.mp h
    obtain ⟨u, hu⟩ := schedulerPass_answers ha ht
    simp [hu, h r]
  · push Not at h
    obtain ⟨q, hq⟩ := h
    have hpass : schedulerPass s t = .error q := by
      rw [schedulerPass, nextTransition_eq_error.mpr hq]
    rw [← nextTransition_eq_error, nextTransition_eq_error.mpr hq, hpass]
    simp only [Except.error.injEq]

theorem reschedule_eq_error : reschedule c s t = .error r ↔ c = .ch0 ∧ RefusesQuery s.params s.ch0 t r := by
  by_cases hc : c = .ch0
  · subst hc
    rw [reschedule_ch0, schedulerPass_eq_error, and_iff_right rfl]
  · simp [reschedule_ne hc, hc]

/-- A Load queries channel 0 at its new load time, so that only its mode can be refused. -/
theorem load_eq_error {v : Nat} :
    load c v s = .error r ↔ c = .ch0 ∧ ¬ Answers s.params s.ch0 ∧ r = .mode67 := by
  refine reschedule_eq_error.trans (and_congr_right ?_)
  rintro rfl
  exact ⟨fun h => h.eq_mode67 le_rfl, fun ⟨ha, hr⟩ => hr ▸ refusesQuery_mode67 le_rfl ha⟩

theorem readLive_eq_error {half : Nat → Byte} {q : Sequencer} :
    readLive half q c s = .error r ↔ RefusesQuery s.params (s.ch c) s.clock r :=
  (map_eq_error.trans map_eq_error).trans getCount_eq_error

end

section
variable {p : Params} {r : ReadBack} {x : Channel} {now : Int} {e : Refusal}

/-- The count part keeps what the status part reads, so that either part is refused as the channel was. -/
theorem readBackChannel_error (h : readBackChannel p r true x now = .error e) : Takes r x ∧ RefusesQuery p x now e := by
  rw [readBackChannel, if_pos rfl, bind_eq_error] at h
  obtain h | ⟨z, hz, h⟩ := h
  · cases hc : r.count with
    | false => rw [hc] at h; cases h
    | true =>
      rw [hc] at h
      obtain ⟨hk, hq⟩ := latchCount_eq_error.mp h
      exact ⟨.inl ⟨hc, hk⟩, hq⟩
  · obtain ⟨n, -, rfl⟩ := readBack_countPart.mp hz
    cases hs : r.status with
    | false => rw [hs] at h; cases h
    | true =>
      rw [hs] at h
      obtain ⟨hk, hq⟩ := latchStatus_eq_error.mp h
      exact ⟨.inr ⟨hs, hk⟩, hq⟩

theorem readBackChannel_ok_iff {sel : Bool} :
    (∃ y, readBackChannel p r sel x now = .ok y) ↔
      (sel = true → Takes r x → x.countLoadTime ≤ now ∧ Answers p x) := by
  cases sel with
  | false => simp [readBackChannel]
  | true =>
    refine ⟨fun ⟨y, hy⟩ _ htakes => ?_, fun h => exists_ok_iff.mpr fun e he => ?_⟩
    · obtain ⟨n, o, hn, ho, -⟩ := readBackChannel_selected.mp hy
      refine not_refusesQuery_iff.mp fun q hq => ?_
      obtain ⟨hc, hk⟩ | ⟨hs, hk⟩ := htakes
      · cases (hn hc hk).symm.trans (getCount_eq_error.mpr hq)
      · cases (ho hs hk).symm.trans (getOut_eq_error.mpr hq)
    · obtain ⟨htakes, hq⟩ := readBackChannel_error he
      exact not_refusesQuery_iff.mpr (h rfl htakes) e hq

end

/-! ### Read-backs, gate events and expiries that are refused -/

section
variable {s : State} {e : Refusal}

theorem readBackOne_error {r : ReadBack} {c : Chan} (h : readBackOne r c s = .error e) :
    r.selects c = true ∧ Takes r (s.ch c) ∧ RefusesQuery s.params (s.ch c) s.clock e := by
  have hc := map_eq_error.mp h
  cases hsel : r.selects c with
  | false => rw [hsel] at hc; cases hc
  | true => rw [hsel] at hc; exact ⟨rfl, readBackChannel_error hc⟩

/-- A refused read-back is refused by one of the channels it takes something of. -/
theorem exec_cwReadback_refused {r : ReadBack} (h : exec (.cwReadback r) s = .refused e) :
    ∃ c, r.selects c = true ∧ Takes r (s.ch c) ∧ RefusesQuery s.params (s.ch c) s.clock e := by
  obtain h | ⟨s2, h2, h⟩ := bind_eq_error.mp (answer_eq_refused.mp h)
  · obtain h | ⟨s1, h1, h⟩ := bind_eq_error.mp h
    · exact ⟨.ch0, readBackOne_error h⟩
    · obtain ⟨y0, -, rfl⟩ := readBackOne_eq_ok.mp h1
      exact ⟨.ch1, readBackOne_error (s := s.setCh .ch0 y0) h⟩
  · obtain ⟨s1, h1, h2⟩ := bind_eq_ok.mp h2
    obtain ⟨y0, -, rfl⟩ := readBackOne_eq_ok.mp h1
    obtain ⟨y1, -, rfl⟩ := readBackOne_eq_ok.mp h2
    exact ⟨.ch2, readBackOne_error (s := (s.setCh .ch0 y0).setCh .ch1 y1) h⟩

theorem exec_cwReadback_runs {r : ReadBack} :
    (∃ t, exec (.cwReadback r) s = .next t) ↔
      ∀ c, r.selects c = true → Takes r (s.ch c) → (s.ch c).countLoadTime ≤ s.clock ∧ Answers s.params (s.ch c) := by
  simp only [← readBackChannel_ok_iff]
  refine ⟨fun ⟨t, ht⟩ c => ⟨_, (exec_cwReadback_eq_next.mp ht).1 c⟩, fun h => ?_⟩
  choose y hy using h
  exact ⟨s.withChannels y, exec_cwReadback_eq_next.mpr ⟨fun c => (hy c).trans (by rw [State.withChannels_ch]), rfl⟩⟩

theorem exec_gate_refusal {c : Chan} {level : Nat} (h : exec (.gate c level) s = .refused e) :
    e = .gateLevel ∨ e = .mode67 := by
  by_cases hlevel : level ≤ 1
  · by_cases hans : Answers s.params (s.ch c)
    · obtain ⟨l, n, b, d, hnext, -⟩ := exec_gate_frame hlevel hans
      cases h.symm.trans hnext
    · exact .inr (Host.Outcome.refused.inj (h.symm.trans (exec_gate_refused hlevel hans)))
  · exact .inl (Host.Outcome.refused.inj (h.symm.trans (exec_gate_level (Nat.not_le.mp hlevel))))

theorem exec_gate_runs {c : Chan} {level : Nat} :
    (∃ t, exec (.gate c level) s = .next t) ↔ level ≤ 1 ∧ Answers s.params (s.ch c) := by
  refine ⟨fun ⟨t, ht⟩ => ?_, fun ⟨hlevel, hans⟩ => ?_⟩
  · obtain ⟨hlevel, reload, hr, -⟩ := exec_gate_eq_next.mp ht
    exact ⟨hlevel, by_contra fun ha => by cases (gateReloads_refused ha).symm.trans hr⟩
  · obtain ⟨l, n, b, d, hnext, -⟩ := exec_gate_frame hlevel hans
    exact ⟨_, hnext⟩

theorem exec_expire_refusal (h : exec .expire s = .refused e) :
    e = .expireNotArmed ∨ e = .expireNotDue ∨ ∃ t, RefusesQuery s.params s.ch0 t e := by
  cases htimer : s.timer with
  | none => exact .inl (Host.Outcome.refused.inj (h.symm.trans (exec_expire_not_armed htimer)))
  | some deadline =>
    cases hnext : s.ch0.nextTransitionTime with
    | none =>
      change execExpire s = _ at h
      rw [execExpire, htimer, hnext] at h
      exact .inl (Host.Outcome.refused.inj h).symm
    | some t =>
      rw [exec_expire_due htimer hnext] at h
      split at h
      · exact .inr (.inr ⟨t, schedulerPass_eq_error.mp (answer_eq_refused.mp h)⟩)
      · exact .inr (.inl (Host.Outcome.refused.inj h).symm)

end

/-! ### A selected operation is never refused as not selected -/

theorem load_ne_notSelected {c : Chan} {v : Nat} {s : State} : load c v s ≠ .error .notSelected :=
  fun h => by
    obtain ⟨-, -, hr⟩ := load_eq_error.mp h
    cases hr

theorem readLive_ne_notSelected {half : Nat → Byte} {q : Sequencer} {c : Chan} {s : State} :
    readLive half q c s ≠ .error .notSelected :=
  fun h => (readLive_eq_error.mp h).ne_notSelected rfl

theorem answerWhen_ne_notSelected {b : Bool} {k : Except Refusal State} (hb : b = true)
    (hk : k ≠ .error .notSelected) : answerWhen b k ≠ .refused .notSelected := by
  rw [ne_eq, answerWhen_eq_refused, hb]
  exact fun h => h.elim (fun h => nomatch h.1) fun h => hk h.2

/-- UNPROG stands before the effect of an unprogrammed form (42_counter_port.md R116, R126). -/
def underUnprog (u : Unprog) (k : Except Refusal State) : Except Refusal State :=
  match u with
  | .refuse => .error .unprogrammed
  | .asLsb => k

theorem exec_wrCnt (c : Chan) (val : Byte) (s : State) :
    exec (.wrCnt c val) s =
      answerWhen (whenHolds s (.wrCnt c val)) (underUnprog s.params.unprog (load c (lsbValue val) s)) := rfl

theorem exec_rdCnt (c : Chan) (s : State) :
    exec (.rdCnt c) s =
      answerWhen (whenHolds s (.rdCnt c)) (underUnprog s.params.unprog (readLive lowByte .unprogrammed c s)) := rfl

theorem underUnprog_ne_notSelected {u : Unprog} {k : Except Refusal State} (hk : k ≠ .error .notSelected) :
    underUnprog u k ≠ .error .notSelected := by
  cases u with
  | refuse => nofun
  | asLsb => exact hk

theorem exec_ne_notSelected {s : State} {i : Instr} (h : whenHolds s i = true) : exec i s ≠ .refused .notSelected := by
  cases i with
  | wrCntLsb | wrCntMsb => exact answerWhen_ne_notSelected h load_ne_notSelected
  | wrCntWord1 => exact answerWhen_ne_notSelected h fun hk => load_ne_notSelected (map_eq_error.mp hk)
  | wrCnt => exact answerWhen_ne_notSelected h (underUnprog_ne_notSelected load_ne_notSelected)
  | wrCntWord0 | rdStatus | rdLatchLsb | rdLatchMsb | rdLatchWord0 => exact answerWhen_ne_notSelected h nofun
  | rdLiveLsb | rdLiveMsb | rdLiveWord0 | rdLiveWord1 => exact answerWhen_ne_notSelected h readLive_ne_notSelected
  | rdCnt => exact answerWhen_ne_notSelected h (underUnprog_ne_notSelected readLive_ne_notSelected)
  | cwLatch =>
    exact fun hk => (latchCount_eq_error.mp (map_eq_error.mp (answer_eq_refused.mp hk))).2.ne_notSelected rfl
  | cwReadback =>
    intro hk
    obtain ⟨c, -, -, hq⟩ := exec_cwReadback_refused hk
    exact hq.ne_notSelected rfl
  | gate => exact fun hk => nomatch exec_gate_refusal hk
  | getOut => exact fun hk => (getOut_eq_error.mp (map_eq_error.mp (answer_eq_refused.mp hk))).ne_notSelected rfl
  | expire =>
    intro hk
    obtain hk | hk | ⟨t, hq⟩ := exec_expire_refusal hk
    · cases hk
    · cases hk
    · exact hq.ne_notSelected rfl
  | hpetEnable =>
    rw [GateAndApiProofs.hpetEnableResult]
    nofun
  | reset =>
    rw [exec_reset]
    nofun
  | cwMode | rdCtrl | getGate | getCount | getMode | hpetDisable => nofun

theorem exec_not_selected {s : State} {i : Instr} (h : whenHolds s i = false) : exec i s = .refused .notSelected := by
  cases i with
  | wrCntLsb | wrCntMsb | wrCntWord0 | wrCntWord1 | wrCnt | rdStatus | rdLatchLsb | rdLatchMsb | rdLatchWord0
  | rdLiveLsb | rdLiveMsb | rdLiveWord0 | rdLiveWord1 | rdCnt => exact answerWhen_eq_refused.mpr (.inl ⟨h, rfl⟩)
  | _ => cases h

theorem whenHolds_selectWrite (s : State) (c : Chan) (v : Byte) :
    whenHolds s (selectWrite (s.ch c) c v) = true ∧ (selectWrite (s.ch c) c v).asDecoded = .wrCnt c v := by
  unfold selectWrite
  cases hw : (s.ch c).writeState <;> exact ⟨decide_eq_true hw, rfl⟩

/-- A count latch has four values and a sequencer five, and each of them has its row of the table. -/
theorem whenHolds_selectRead (s : State) (c : Chan) :
    whenHolds s (selectRead (s.ch c) c) = true ∧ (selectRead (s.ch c) c).asDecoded = .rdCnt c := by
  have hzero : ∀ k : BitVec 2, k ≠ 1 → k ≠ 2 → k ≠ 3 → k = 0 := by decide
  unfold selectRead
  split_ifs with hst h1 h2 h3
  · exact ⟨hst, rfl⟩
  · exact ⟨latchView_iff.mpr ⟨Bool.not_eq_true _ ▸ hst, h1⟩, rfl⟩
  · exact ⟨latchView_iff.mpr ⟨Bool.not_eq_true _ ▸ hst, h2⟩, rfl⟩
  · exact ⟨latchView_iff.mpr ⟨Bool.not_eq_true _ ▸ hst, h3⟩, rfl⟩
  · have hlive : (s.ch c).statusLatched = false ∧ (s.ch c).countLatched = 0 :=
      ⟨Bool.not_eq_true _ ▸ hst, hzero _ h1 h2 h3⟩
    unfold selectLive
    cases hq : (s.ch c).readState <;> exact ⟨liveAt_iff.mpr ⟨hlive, hq⟩, rfl⟩

theorem whenHolds_select (s : State) (i : Instr) :
    whenHolds s (select s i.asDecoded) = true ∧ (select s i.asDecoded).asDecoded = i.asDecoded := by
  cases i with
  | wrCntLsb c v | wrCntMsb c v | wrCntWord0 c v | wrCntWord1 c v | wrCnt c v => exact whenHolds_selectWrite s c v
  | rdStatus c | rdLatchLsb c | rdLatchMsb c | rdLatchWord0 c | rdLiveLsb c | rdLiveMsb c | rdLiveWord0 c
  | rdLiveWord1 c | rdCnt c => exact whenHolds_selectRead s c
  | cwMode | cwLatch | cwReadback | rdCtrl | gate | getGate | getCount | getMode | getOut | hpetDisable | hpetEnable
  | expire | reset => exact ⟨rfl, rfl⟩

/-! ### When an operation runs -/

section
variable {s : State} {i : Instr}

theorem mayRun_of_whenHolds (hwf : i.wellFormed = true) (hwhen : whenHolds s i = true) (hctrl : i ≠ .rdCtrl)
    (hexp : i ≠ .expire) : mayRun s i := ⟨hwf, hwhen, hctrl, fun hi => absurd hi hexp⟩

theorem mayRun_iff_whenHolds (hwf : i.wellFormed = true) (hctrl : i ≠ .rdCtrl) (hexp : i ≠ .expire) :
    mayRun s i ↔ whenHolds s i = true :=
  ⟨fun ⟨_, hwhen, _⟩ => hwhen, fun h => mayRun_of_whenHolds hwf h hctrl hexp⟩

theorem permitted_iff_consults (hu : isUnprogrammedForm i = true → s.params.unprog ≠ .refuse) :
    permitted s i ↔ ∀ c, consults s i c = true → Answers s.params (s.ch c) :=
  and_iff_left hu

/-- An operation that consults one channel at most is permitted where that channel answers. -/
theorem permitted_iff_one {c : Chan} {q : Prop} (hu : isUnprogrammedForm i = true → s.params.unprog ≠ .refuse)
    (hc : ∀ d, consults s i d = true ↔ d = c ∧ q) : permitted s i ↔ (q → Answers s.params (s.ch c)) := by
  rw [permitted_iff_consults hu]
  exact ⟨fun h hq => h c ((hc c).mpr ⟨rfl, hq⟩), fun h d hd => by obtain ⟨rfl, hq⟩ := (hc d).mp hd; exact h hq⟩

theorem answerWhen_runs {b : Bool} {k : Except Refusal State} :
    (∃ t, answerWhen b k = .next t) ↔ b = true ∧ ∃ u, k = .ok u := by
  simp only [answerWhen_eq_next, exists_and_left]

theorem map_runs {α β : Type} {k : Except Refusal α} {f : α → β} : (∃ b, k.map f = .ok b) ↔ ∃ a, k = .ok a := by
  simp only [exists_ok_iff, ne_eq, map_eq_error]

/-- A sub-form runs where the state selects it and its effect answers. -/
theorem runs_of_answerWhen {k : Except Refusal State} (hexec : exec i s = answerWhen (whenHolds s i) k)
    (hwf : i.wellFormed = true) (hctrl : i ≠ .rdCtrl) (hexp : i ≠ .expire) (hk : (∃ u, k = .ok u) ↔ permitted s i) :
    (∃ t, exec i s = .next t) ↔ mayRun s i ∧ permitted s i := by
  rw [hexec, answerWhen_runs, mayRun_iff_whenHolds hwf hctrl hexp, hk]

/-- An operation that every state runs. -/
theorem runs_always {t : State} (hexec : exec i s = .next t) (hwf : i.wellFormed = true) (hwhen : whenHolds s i = true)
    (hctrl : i ≠ .rdCtrl) (hexp : i ≠ .expire) (hu : isUnprogrammedForm i = false) (hc : ∀ c, consults s i c = false) :
    (∃ t, exec i s = .next t) ↔ mayRun s i ∧ permitted s i :=
  iff_of_true ⟨t, hexec⟩ ⟨mayRun_of_whenHolds hwf hwhen hctrl hexp,
    fun c h => (nomatch (hc c).symm.trans h), fun h => nomatch hu.symm.trans h⟩

theorem load_runs {c : Chan} {v : Nat} : (∃ u, load c v s = .ok u) ↔ (c = .ch0 → Answers s.params s.ch0) := by
  rw [exists_ok_iff]
  simp only [ne_eq, load_eq_error, not_and]
  exact ⟨fun h hc => by_contra fun ha => h .mode67 hc ha rfl, fun h _ hc ha _ => ha (h hc)⟩

theorem readLive_runs {half : Nat → Byte} {q : Sequencer} {c : Chan} (hload : (s.ch c).countLoadTime ≤ s.clock) :
    (∃ u, readLive half q c s = .ok u) ↔ Answers s.params (s.ch c) := by
  rw [exists_ok_iff]
  simp only [ne_eq, readLive_eq_error, not_refusesQuery_iff, and_iff_right hload]

/-- A Load consults channel 0, and only where it is the channel written. -/
theorem permitted_load {c : Chan} {v : Nat} (hu : isUnprogrammedForm i = true → s.params.unprog ≠ .refuse)
    (hc : ∀ d, consults s i d = (decide (c = .ch0) && decide (d = .ch0))) :
    (∃ u, load c v s = .ok u) ↔ permitted s i := by
  rw [load_runs, permitted_iff_one (c := .ch0) (q := c = .ch0) hu]
  · rfl
  · exact fun d => by rw [hc, Bool.and_eq_true, decide_eq_true_iff, decide_eq_true_iff, and_comm]

theorem permitted_readLive {half : Nat → Byte} {q : Sequencer} {c : Chan}
    (hload : (s.ch c).countLoadTime ≤ s.clock) (hu : isUnprogrammedForm i = true → s.params.unprog ≠ .refuse)
    (hc : ∀ d, consults s i d = decide (d = c)) : (∃ u, readLive half q c s = .ok u) ↔ permitted s i := by
  rw [readLive_runs hload, permitted_iff_one (c := c) (q := True) hu, forall_true_left]
  exact fun d => by rw [hc, decide_eq_true_iff, and_true]

theorem permitted_underUnprog {k : Except Refusal State} (hu : isUnprogrammedForm i = true)
    (hk : s.params.unprog ≠ .refuse → ((∃ u, k = .ok u) ↔ permitted s i)) :
    (∃ u, underUnprog s.params.unprog k = .ok u) ↔ permitted s i := by
  cases hp : s.params.unprog with
  | refuse => exact iff_of_false (fun ⟨u, hu'⟩ => nomatch hu') fun h => h.2 hu hp
  | asLsb => exact hk (hp ▸ nofun)

end

/-! ### Progress in a state that meets the invariant -/

theorem State.Inv.load_past {s : State} (h : s.Inv) (c : Chan) : (s.ch c).countLoadTime ≤ s.clock := by
  cases c with
  | ch0 => exact h.ch0.load_past
  | ch1 => exact h.ch1.load_past
  | ch2 => exact h.ch2.load_past

section
variable {s : State} {c : Chan}

theorem cwLatch_runs (hs : s.Inv) :
    (∃ t, exec (.cwLatch c) s = .next t) ↔ mayRun s (.cwLatch c) ∧ permitted s (.cwLatch c) := by
  have hans : (∃ t, exec (.cwLatch c) s = .next t) ↔ ((s.ch c).countLatched = 0 → Answers s.params (s.ch c)) := by
    have hmap : (∃ t, exec (.cwLatch c) s = .next t) ↔ ∃ y, latchCount s.params (s.ch c) s.clock = .ok y :=
      (exists_congr fun _ => answer_eq_next).trans map_runs
    rw [hmap, exists_ok_iff]
    by_cases hk : (s.ch c).countLatched = 0
    · simp only [ne_eq, latchCount_eq_error, hk, true_and, not_refusesQuery_iff, hs.load_past c, forall_true_left]
    · simp only [ne_eq, latchCount_eq_error, hk, false_and, not_false_eq_true, implies_true, false_imp_iff]
  rw [hans, and_iff_right (mayRun_of_whenHolds (i := .cwLatch c) rfl rfl nofun nofun),
    permitted_iff_one (i := .cwLatch c) nofun]
  exact fun d => by rw [consults, Bool.and_eq_true, decide_eq_true_iff, decide_eq_true_iff]

theorem cwReadback_runs (hs : s.Inv) {r : ReadBack} :
    (∃ t, exec (.cwReadback r) s = .next t) ↔ mayRun s (.cwReadback r) ∧ permitted s (.cwReadback r) := by
  have hconsults : ∀ d, consults s (.cwReadback r) d = true ↔ r.selects d = true ∧ Takes r (s.ch d) := fun d => by
    simp [consults, Takes]
  rw [exec_cwReadback_runs, and_iff_right (mayRun_of_whenHolds (i := .cwReadback r) rfl rfl nofun nofun),
    permitted_iff_consults (i := .cwReadback r) nofun]
  simp only [hconsults, hs.load_past, true_and, and_imp]

theorem gate_runs {level : Nat} :
    (∃ t, exec (.gate c level) s = .next t) ↔ mayRun s (.gate c level) ∧ permitted s (.gate c level) := by
  have hmay : mayRun s (.gate c level) ↔ level ≤ 1 :=
    ⟨fun h => of_decide_eq_true h.1, fun h => ⟨decide_eq_true h, rfl, nofun, nofun⟩⟩
  rw [exec_gate_runs, hmay, permitted_iff_one (i := .gate c level) (c := c) (q := True) nofun, forall_true_left]
  exact fun d => by rw [consults, decide_eq_true_iff, and_true]

theorem getOut_runs (hs : s.Inv) :
    (∃ t, exec (.getOut c) s = .next t) ↔ mayRun s (.getOut c) ∧ permitted s (.getOut c) := by
  have hmap : (∃ t, exec (.getOut c) s = .next t) ↔ ∃ b, getOut s.params (s.ch c) s.clock = .ok b :=
    (exists_congr fun _ => answer_eq_next).trans map_runs
  rw [hmap, exists_ok_iff, and_iff_right (mayRun_of_whenHolds (i := .getOut c) rfl rfl nofun nofun),
    permitted_iff_one (i := .getOut c) (c := c) (q := True) nofun, forall_true_left]
  · simp only [ne_eq, getOut_eq_error, not_refusesQuery_iff, hs.load_past c, true_and]
  · exact fun d => by rw [consults, decide_eq_true_iff, and_true]

/-- An armed timer holds the next transition time, which lies after the load, so that only MODE67 stops the pass. -/
theorem expire_runs (hs : s.Inv) : (∃ t, exec .expire s = .next t) ↔ mayRun s .expire ∧ permitted s .expire := by
  have hmay : mayRun s .expire ↔ expireEnabled s := ⟨fun ⟨_, _, _, h⟩ => h rfl, fun h => ⟨rfl, rfl, nofun, fun _ => h⟩⟩
  rw [hmay, permitted_iff_one (i := .expire) (c := .ch0) (q := True) nofun, forall_true_left]
  · refine ⟨fun ⟨t, ht⟩ => ?_, fun ⟨⟨deadline, htimer, hdue⟩, hans⟩ => ?_⟩
    · obtain ⟨deadline, now, htimer, -, hdue, hpass⟩ := exec_expire_eq_next.mp ht
      refine ⟨⟨deadline, htimer, hdue⟩, ?_⟩
      have hok : ∀ r, ¬ RefusesQuery s.params s.ch0 now r := fun r hr => by
        cases hpass.symm.trans (schedulerPass_eq_error.mpr hr)
      exact (not_refusesQuery_iff.mp hok).2
    · obtain ⟨hnext, hlt⟩ := hs.timer_next deadline htimer
      obtain ⟨u, hu⟩ := schedulerPass_answers hans hlt.le
      exact ⟨u, exec_expire_eq_next.mpr ⟨deadline, deadline, htimer, hnext, hdue, hu⟩⟩
  · exact fun d => by rw [consults, decide_eq_true_iff, and_true]

end

/-- Which operations run in a state that meets the invariant: no query is made before the load there. -/
theorem exec_runs_iff {s : State} (hs : s.Inv) (i : Instr) :
    (∃ t, exec i s = .next t) ↔ mayRun s i ∧ permitted s i := by
  have hok : ∀ t : State, ∃ u, (.ok t : Except Refusal State) = .ok u := fun t => ⟨t, rfl⟩
  cases i with
  | cwMode | getGate | getCount | getMode | hpetDisable => exact runs_always rfl rfl rfl nofun nofun rfl fun _ => rfl
  | hpetEnable =>
    exact runs_always (GateAndApiProofs.hpetEnableResult s) rfl rfl nofun nofun rfl fun _ => rfl
  | reset => exact runs_always (exec_reset s) rfl rfl nofun nofun rfl fun _ => rfl
  | cwLatch => exact cwLatch_runs hs
  | cwReadback => exact cwReadback_runs hs
  | gate => exact gate_runs
  | getOut => exact getOut_runs hs
  | expire => exact expire_runs hs
  | rdCtrl => exact iff_of_false (fun ⟨t, ht⟩ => nomatch ht) fun ⟨⟨_, _, hctrl, _⟩, _⟩ => hctrl rfl
  | wrCntLsb | wrCntMsb => exact runs_of_answerWhen rfl rfl nofun nofun (permitted_load nofun fun _ => rfl)
  | wrCntWord1 => exact runs_of_answerWhen rfl rfl nofun nofun (map_runs.trans (permitted_load nofun fun _ => rfl))
  | wrCnt c val =>
    exact runs_of_answerWhen (exec_wrCnt c val s) rfl nofun nofun
      (permitted_underUnprog rfl fun hp => permitted_load (fun _ => hp) fun _ => rfl)
  | rdLiveLsb c | rdLiveMsb c | rdLiveWord0 c | rdLiveWord1 c =>
    exact runs_of_answerWhen rfl rfl nofun nofun (permitted_readLive (hs.load_past c) nofun fun _ => rfl)
  | rdCnt c =>
    exact runs_of_answerWhen (exec_rdCnt c s) rfl nofun nofun
      (permitted_underUnprog rfl fun hp => permitted_readLive (hs.load_past c) (fun _ => hp) fun _ => rfl)
  | wrCntWord0 | rdStatus | rdLatchLsb | rdLatchMsb | rdLatchWord0 =>
    exact runs_of_answerWhen rfl rfl nofun nofun (iff_of_true (hok _) ⟨nofun, nofun⟩)

/-! ### A step on a port access -/

/-- What a state selects, and what an operation consults, depend on the channels alone. -/
theorem select_congr {s t : State} (h : ∀ c, s.ch c = t.ch c) (i : Instr) : select s i = select t i := by
  cases i with
  | wrCnt c val => exact congrArg (selectWrite · c val) (h c)
  | rdCnt c => exact congrArg (selectRead · c) (h c)
  | _ => rfl

theorem permitted_arrive {s : State} {e : Event} {rest : List Event} {i : Instr} (h : permitted s i) :
    permitted (arrive s e rest) i := by
  obtain ⟨hans, hu⟩ := h
  have hconsults : ∀ c, consults (arrive s e rest) i c = consults s i c := fun c => by
    cases i <;> simp only [consults, arrive_ch]
  exact ⟨fun c hc => arrive_ch s e rest c ▸ hans c (hconsults c ▸ hc), hu⟩

theorem wellFormed_of_onBus {i : Instr} (h : i.onBus = true) : i.wellFormed = true := by
  cases i with
  | gate => cases h
  | _ => rfl

theorem onBus_asDecoded (i : Instr) : i.asDecoded.onBus = i.onBus := by
  cases i <;> rfl

/-- Only a read of offset 3 decodes to the read of the control port (30_encoding.md R61). -/
theorem eq_read_of_decode_rdCtrl {dir : Bool} {off : BitVec 2} {v : Byte} (h : decodeTransaction dir off v = .rdCtrl) :
    dir = false ∧ off = 3 := by
  obtain ⟨c, -, ⟨-, hd⟩ | ⟨-, hd⟩⟩ | ⟨hoff, ⟨-, hd⟩ | ⟨hdir, -⟩⟩ := decodeTransaction_cases dir off v
  · cases h.symm.trans hd
  · cases h.symm.trans hd
  · obtain ⟨-, hv⟩ | ⟨c, -, ⟨-, hv⟩ | ⟨a, -, hv⟩⟩ := decodeControl_cases v <;> cases h.symm.trans (hd.trans hv)
  · exact ⟨hdir, hoff⟩

/-- A bus operation in the form the state selects runs unless it is the read of the control port. -/
theorem mayRun_select {s : State} {i : Instr} (hbus : i.onBus = true) (hself : i.asDecoded = i) (hctrl : i ≠ .rdCtrl) :
    mayRun s (select s i) := by
  obtain ⟨hwhen, hform⟩ := whenHolds_select s i
  rw [hself] at hwhen hform
  have hsel : (select s i).onBus = true := by rw [← onBus_asDecoded, hform, hbus]
  refine mayRun_of_whenHolds (wellFormed_of_onBus hsel) hwhen (fun h => hctrl ?_) fun h => ?_
  · rw [← hform, h]
    rfl
  · rw [h] at hsel
    cases hsel

/-- On a programmed channel neither sequencer is 0, so that no access takes the unprogrammed form. -/
theorem select_programmed {s : State} (hs : s.Inv) (hprog : ∀ c, (s.ch c).rwMode ≠ 0) {i : Instr} (hself : i.asDecoded = i) :
    isUnprogrammedForm (select s i) = false := by
  have hseq : ∀ c, (s.ch c).readState ≠ .unprogrammed ∧ (s.ch c).writeState ≠ .unprogrammed := fun c => by
    have hr : (s.ch c).Restorable s.clock := by
      cases c with
      | ch0 => exact hs.restorable.ch0
      | ch1 => exact hs.restorable.ch1
      | ch2 => exact hs.restorable.ch2
    exact ⟨fun h => hprog c (hr.read_programmed.mp h), fun h => hprog c (hr.write_programmed.mp h)⟩
  have hwhen := (whenHolds_select s i).1
  rw [hself] at hwhen
  cases hi : select s i with
  | wrCnt c val =>
    rw [hi] at hwhen
    exact absurd (of_decide_eq_true hwhen) (hseq c).2
  | rdCnt c =>
    rw [hi] at hwhen
    exact absurd (liveAt_iff.mp hwhen).2 (hseq c).1
  | _ => rfl

/-- A byte access to a port of a state that meets the invariant. -/
theorem step_port_runs {s : State} (hs : s.Inv) {wait off data : Nat} {write : Bool} {rest : List Event} {i : Instr}
    (hoff : off < 4) (hi : decode (transactionBytes write (BitVec.ofNat 2 off) (BitVec.ofNat 8 data)) = .ok i)
    (hbus : i.onBus = true) (hself : i.asDecoded = i) (hctrl : i ≠ .rdCtrl) (hperm : permitted s (select s i)) :
    ∃ t, step { s with inbox := ⟨wait, .port ⟨write, s.params.ioBase + off, 1, data⟩⟩ :: rest } = .next t := by
  rw [step_port (s := { s with inbox := _ }) rfl rfl hoff hi]
  have hsel := select_congr (arrive_ch s ⟨wait, .port ⟨write, s.params.ioBase + off, 1, data⟩⟩ rest) i
  change ∃ t, exec (select (arrive s _ rest) i) (arrive s _ rest) = .next t
  rw [exec_runs_iff (arrive_inv hs _ _)]
  exact ⟨mayRun_select hbus hself hctrl, hsel ▸ permitted_arrive hperm⟩

/-! ### Operations that query a channel that refuses -/

section
variable {s : State} {c : Chan} {r : Refusal}

theorem exec_getOut_refused (h : RefusesQuery s.params (s.ch c) s.clock r) : exec (.getOut c) s = .refused r :=
  answer_eq_refused.mpr (map_eq_error.mpr (getOut_eq_error.mpr h))

theorem exec_cwLatch_refused (hk : (s.ch c).countLatched = 0) (h : RefusesQuery s.params (s.ch c) s.clock r) :
    exec (.cwLatch c) s = .refused r :=
  answer_eq_refused.mpr (map_eq_error.mpr (latchCount_eq_error.mpr ⟨hk, h⟩))

/-- A live read queries the count in each of its forms, behind UNPROG in the last. -/
theorem exec_liveRead_refused (hlive : liveView (s.ch c) = true)
    (hu : (s.ch c).readState = .unprogrammed → s.params.unprog = .asLsb)
    (h : RefusesQuery s.params (s.ch c) s.clock r) : exec (select s (.rdCnt c)) s = .refused r := by
  have hview : (s.ch c).statusLatched = false ∧ (s.ch c).countLatched = 0 := by simpa [liveView] using hlive
  have hat : ∀ {q}, (s.ch c).readState = q → liveAt (s.ch c) q = true := fun hq => liveAt_iff.mpr ⟨hview, hq⟩
  rw [select_rdCnt_live hview.1 hview.2, selectLive]
  cases hq : (s.ch c).readState with
  | unprogrammed =>
    rw [exec_rdCnt, hu hq]
    exact answerWhen_eq_refused.mpr (.inr ⟨hat hq, readLive_eq_error.mpr h⟩)
  | lsb | msb | word0 | word1 => exact answerWhen_eq_refused.mpr (.inr ⟨hat hq, readLive_eq_error.mpr h⟩)

/-- A write that loads channel 0 queries it at the load, behind UNPROG in the unprogrammed form. -/
theorem exec_loadWrite_refused {val : Byte} (hans : ¬ Answers s.params s.ch0) (hw : s.ch0.writeState ≠ .word0)
    (hu : s.ch0.writeState = .unprogrammed → s.params.unprog = .asLsb) :
    exec (select s (.wrCnt .ch0 val)) s = .refused .mode67 := by
  have hload : ∀ v, load .ch0 v s = .error .mode67 := fun v => load_eq_error.mpr ⟨rfl, hans, rfl⟩
  simp only [select, selectWrite, State.ch_ch0]
  cases hq : s.ch0.writeState with
  | unprogrammed =>
    simp only [exec_wrCnt, hu hq]
    exact answerWhen_eq_refused.mpr (.inr ⟨decide_eq_true hq, hload _⟩)
  | lsb | msb => exact answerWhen_eq_refused.mpr (.inr ⟨decide_eq_true hq, hload _⟩)
  | word0 => exact absurd hq hw
  | word1 => exact answerWhen_eq_refused.mpr (.inr ⟨decide_eq_true hq, map_eq_error.mpr (hload _)⟩)

/-- A read-back made after every selected load is refused as mode67, by this channel or by one before it. -/
theorem exec_readBack_refused_mode67 {r : ReadBack} (hsel : r.selects c = true) (htakes : Takes r (s.ch c))
    (hans : ¬ Answers s.params (s.ch c)) (hload : ∀ d, r.selects d = true → (s.ch d).countLoadTime ≤ s.clock) :
    exec (.cwReadback r) s = .refused .mode67 := by
  obtain ⟨e, he⟩ := exists_refused fun t ht => hans (exec_cwReadback_runs.mp ⟨t, ht⟩ c hsel htakes).2
  obtain ⟨d, hd, -, hq⟩ := exec_cwReadback_refused he
  rw [he, (hq.eq_mode67 (hload d hd)).2]

end

end Sys2Proof.Machine

namespace Sys2Proof.ProgressProofs

open Sys2Proof.Machine

/-- Settles O14: each of the three passes the refusal of its query on. -/
theorem queryBeforeLoadStops : Obligations.QueryBeforeLoadStops := by
  intro s c h
  have hq : RefusesQuery s.params (s.ch c) s.clock .timeBeforeLoad := refusesQuery_before_load h
  exact ⟨exec_getOut_refused hq, fun hk => exec_cwLatch_refused hk hq,
    fun hlive hread => exec_liveRead_refused hlive (fun hr => absurd hr hread) hq⟩

/-- Settles O36: the selected row's condition holds, a row whose condition holds is the selected one, and a sub-form is
refused as not selected exactly where its condition fails. -/
theorem selectionFollowsTheTable : Obligations.SelectionFollowsTheTable := by
  intro s i
  obtain ⟨hwhen, hform⟩ := whenHolds_select s i
  exact ⟨hwhen, hform, select_of_whenHolds, exec_not_selected, exec_ne_notSelected hwhen⟩

/-- Settles O58: under the invariant no query is made before a load, so that MODE67 and UNPROG alone are left to stop a
selected operation. -/
theorem everyOperationRuns : Obligations.EveryOperationRuns := fun _ i hs => exec_runs_iff hs i

/-- Settles O59: the access decodes to a bus operation whose selected form may run; with programmed channels in operating
modes every form is permitted. -/
theorem everyBusAccessSteps : Obligations.EveryBusAccessSteps := by
  intro s wait write off data rest hs hoff hread
  obtain ⟨hbus, hself⟩ := decodeTransaction_onBus write (BitVec.ofNat 2 off) (BitVec.ofNat 8 data)
  have hdec := decode_transactionBytes write (BitVec.ofNat 2 off) (BitVec.ofNat 8 data)
  have hctrl : decodeTransaction write (BitVec.ofNat 2 off) (BitVec.ofNat 8 data) ≠ .rdCtrl := fun h => by
    obtain ⟨hwrite, h3⟩ := eq_read_of_decode_rdCtrl h
    have hoff3 : off % 4 = 3 := congrArg BitVec.toNat h3
    exact hread hwrite (by omega)
  refine ⟨⟨_, hdec, hbus, step_port_runs hs hoff hdec hbus hself hctrl⟩, fun hch =>
    step_port_runs hs hoff hdec hbus hself hctrl ⟨fun c _ => .inl (hch c).1, fun hu => ?_⟩⟩
  rw [select_programmed hs (fun c => (hch c).2) hself] at hu
  cases hu

/-- Settles O60: a channel in mode 6 or 7 does not answer under refuse, and each operation that queries it passes the
refusal on; storing, reporting and replacing the mode make no query of it. -/
theorem mode67OperationsAreRefused : Obligations.Mode67OperationsAreRefused := by
  intro s c hp hm
  have hans : ¬ Answers s.params (s.ch c) := fun ha => ha.elim (· (ofField_unstated.mpr hm)) (· hp)
  refine ⟨fun hload => ?_, ?_, ?_, exec_getMode c s, fun a m bcd => ⟨_, exec_cwMode c a m bcd s, ?_⟩,
    ⟨_, exec_reset s⟩, ⟨_, GateAndApiProofs.hpetEnableResult s⟩⟩
  · have hq : RefusesQuery s.params (s.ch c) s.clock .mode67 := refusesQuery_mode67 hload hans
    exact ⟨fun hk => exec_cwLatch_refused hk hq,
      fun r hsel hloads htakes => exec_readBack_refused_mode67 hsel htakes hans hloads,
      fun hlive hu => exec_liveRead_refused hlive hu hq, exec_getOut_refused hq⟩
  · rintro rfl val hw hu
    exact exec_loadWrite_refused hans hw hu
  · rintro rfl deadline t htimer hdue hnext hload
    rw [exec_expire_due htimer hnext, if_pos hdue, answer_eq_refused, schedulerPass_eq_error]
    exact refusesQuery_mode67 hload hans
  · rw [State.setCh_ch_self]

end Sys2Proof.ProgressProofs
end

section
/-! PROOFS. Reset and construction (70_reset_and_hazards.md R170, R171), and the persisted image (10_state.md R31), and the
obligations about them. -/

namespace Sys2Proof.Machine

/-! ### The image determines its fields -/

theorem ofNat32_inj {m n : Nat} (hm : m ≤ 65536) (hn : n ≤ 65536) (h : BitVec.ofNat 32 m = BitVec.ofNat 32 n) : m = n := by
  have hnat := congrArg BitVec.toNat h
  rw [BitVec.toNat_ofNat, BitVec.toNat_ofNat] at hnat
  omega

theorem ofInt64_inj {a b : Int} (ha : -(2 ^ 63) ≤ a ∧ a < 2 ^ 63) (hb : -(2 ^ 63) ≤ b ∧ b < 2 ^ 63)
    (h : BitVec.ofInt 64 a = BitVec.ofInt 64 b) : a = b := by
  rw [← BitVec.toInt_ofInt_eq_self (w := 64) (by decide) ha.1 ha.2, h,
    BitVec.toInt_ofInt_eq_self (w := 64) (by decide) hb.1 hb.2]

theorem Sequencer.number_inj {q r : Sequencer} (h : q.number = r.number) : q = r := by
  revert h
  cases q <;> cases r <;> decide

theorem setWidth8_inj2 {a b : BitVec 2} (h : a.setWidth 8 = b.setWidth 8) : a = b := by
  revert a b
  decide

theorem setWidth8_inj3 {a b : BitVec 3} (h : a.setWidth 8 = b.setWidth 8) : a = b := by
  revert a b
  decide

theorem ofBool8_inj {a b : Bool} (h : (BitVec.ofBool a).setWidth 8 = (BitVec.ofBool b).setWidth 8) : a = b := by
  revert a b
  decide

/-- A time that 64 bits hold and that does not look like `NONE`, if there is one. -/
def FitsImage (p : Params) (e : Option Int) : Prop :=
  ∀ h, e = some h → -(2 ^ 63) ≤ h ∧ h < 2 ^ 63 ∧ BitVec.ofInt 64 h ≠ p.noneEncoding

theorem persistTime_inj {p : Params} {d e : Option Int} (hd : FitsImage p d) (he : FitsImage p e)
    (h : persistTime p d = persistTime p e) : d = e := by
  cases d with
  | none =>
    cases e with
    | none => rfl
    | some b =>
      obtain ⟨-, -, hne⟩ := he b rfl
      exact absurd h.symm hne
  | some a =>
    obtain ⟨halo, hahi, hane⟩ := hd a rfl
    cases e with
    | none => exact absurd h hane
    | some b =>
      obtain ⟨hblo, hbhi, -⟩ := he b rfl
      exact congrArg some (ofInt64_inj ⟨halo, hahi⟩ ⟨hblo, hbhi⟩ h)

theorem persistedFields_inj {x y : Channel} (hx : x.count ≤ 65536) (hy : y.count ≤ 65536)
    (hxl : -(2 ^ 63) ≤ x.countLoadTime ∧ x.countLoadTime < 2 ^ 63)
    (hyl : -(2 ^ 63) ≤ y.countLoadTime ∧ y.countLoadTime < 2 ^ 63)
    (h : x.persistedFields = y.persistedFields) (hnext : x.nextTransitionTime = y.nextTransitionTime) : x = y := by
  simp only [Channel.persistedFields, PersistedFields.mk.injEq] at h
  obtain ⟨hcount, hlatched, hk, hst, hstatus, hread, hwrite, hlatch, hrw, hmode, hbcd, hgate, hload⟩ := h
  have hcount := ofNat32_inj hx hy hcount
  have hload := ofInt64_inj hxl hyl hload
  obtain ⟨⟩ := x
  obtain ⟨⟩ := y
  simp only [Channel.mk.injEq]
  exact ⟨hcount, hload, setWidth8_inj3 hmode, ofBool8_inj hbcd, ofBool8_inj hgate, setWidth8_inj2 hrw,
    Sequencer.number_inj hread, Sequencer.number_inj hwrite, hlatch, hlatched, setWidth8_inj2 hk, ofBool8_inj hst,
    hstatus, hnext⟩

theorem State.Restorable.count_le {s : State} (h : s.Restorable) (c : Chan) : (s.ch c).count ≤ 65536 := by
  cases c with
  | ch0 => exact h.ch0.count_le
  | ch1 => exact h.ch1.count_le
  | ch2 => exact h.ch2.count_le

theorem persisted_channel {s t : State} (hp : s.params = t.params) (h : s.persisted = t.persisted) (c : Chan) :
    (s.ch c).persisted s.params = (t.ch c).persisted s.params := by
  rw [State.persisted, State.persisted, ← hp, Persisted.mk.injEq] at h
  obtain ⟨h0, h1, h2, -⟩ := h
  cases c with
  | ch0 => exact h0
  | ch1 => exact h1
  | ch2 => exact h2

/-- By decision D21 the timer of a restored state is cancelled or channel 0's next transition time, so that it fits too. -/
theorem fitsImage_timer {s : State} (h : s.Restorable) (hnext : FitsImage s.params s.ch0.nextTransitionTime) :
    FitsImage s.params s.timer := by
  obtain ht | ht := h.timer_next
  · rw [ht]
    nofun
  · rwa [ht]

end Sys2Proof.Machine

namespace Sys2Proof.ResetAndImageProofs

open Sys2Proof.Machine

/-- Settles O2: the three turns of the loop, of which the first has the pass. -/
theorem resetResult : Obligations.ResetResult := exec_reset

/-- Settles O1: the reset of the all-zero state, in which the line is driven whatever it was. -/
theorem constructionResult : Obligations.ConstructionResult :=
  fun p line => ⟨exec_reset (State.beforeReset p line), exec_reset (State.beforeReset p line)⟩

/-- Settles O48: every field has an injective image on its range, and the image leaves out only the line. -/
theorem persistedImageKeepsEveryField : Obligations.PersistedImageKeepsEveryField := by
  refine ⟨fun s t hs ht hp himage hfits => ?_, fun s line hs =>
    .inl ⟨⟨rfl, rfl, rfl, .inr rfl⟩, hs.ch0, hs.ch1, hs.ch2, hs.timer_next⟩⟩
  have hsfits := hfits s (.inl rfl)
  have htfits := hfits t (.inr rfl)
  rw [← hp] at htfits
  refine ⟨fun c => ?_, ?_⟩
  · have hc := persisted_channel hp himage c
    rw [Channel.persisted, Channel.persisted, PersistedChannel.mk.injEq] at hc
    obtain ⟨hfields, hnext⟩ := hc
    obtain ⟨hsload, hsnext⟩ := hsfits c
    obtain ⟨htload, htnext⟩ := htfits c
    exact persistedFields_inj (hs.count_le c) (ht.count_le c) hsload htload hfields (persistTime_inj hsnext htnext hnext)
  · have hdeadline : persistTime s.params s.timer = persistTime s.params t.timer :=
      (congrArg Persisted.deadline himage).trans (by rw [State.persisted, hp])
    exact persistTime_inj (fitsImage_timer hs (hsfits .ch0).2) (hp ▸ fitsImage_timer ht (hp ▸ (htfits .ch0).2)) hdeadline

end Sys2Proof.ResetAndImageProofs
end
